-- ==== Sys2Proof/Word.lean ====
section
/-! DEFINITION. The word types of the machine: the 16-bit word that memory and the instruction stream are made of
(20_memory.md R50, 30_encoding.md R80), the 64-bit register (00_scope.md R5, `XLEN`), and the byte. -/

namespace Sys2Proof

/-- Half of a memory word, as a byte-addressed bus or a file sees it (20_memory.md R52). -/
abbrev Byte := BitVec 8

/-- The addressable unit and the instruction word: 16 bits (00_scope.md R5, `IWORD` and `AU`). -/
abbrev Word := BitVec 16

/-- A register or an address: `XLEN` = 64 bits (00_scope.md R5, decision D4). Operands of 16 and 32 bits are held in
the low bits of a `Quad`. -/
abbrev Quad := BitVec 64

/-- A register number: the 3-bit field of a 30_encoding.md R80 operand. -/
abbrev RegNum := Fin 8

/-- An unassigned or operand-carrying 3-bit field: the `op` of a reserved word, the `m` of a trap
(45_system_ops.md R232). -/
abbrev Code3 := BitVec 3

/-- The quick field w[4:0] (30_encoding.md R80). -/
abbrev Quick := BitVec 5

end Sys2Proof
end

