-- ==== Sys2Proof/Syntax.lean ====
section
/-! DEFINITION. The instructions of the machine: operand forms (30_encoding.md R82, R83), sizes (R85), precisions
(R84), and one constructor of `Instr` for each of the 108 rows of spec/opcode_table.json (R108). Which field values a
constructor may carry is Sys2Proof/WellFormed.lean's. -/

namespace Sys2Proof

/-- Sizes .W, .L, .Q (30_encoding.md R85, codes 00, 01, 10). -/
inductive Size where
  | w | l | q
deriving DecidableEq, Repr

/-- Float (secondary op 0) and Double (secondary op 1) (30_encoding.md R84, 43_float_ops.md R160). -/
inductive Precision where
  | float | double
deriving DecidableEq, Repr

/-- The four special registers in the order of their codes (10_state.md R24, 30_encoding.md R83). -/
inductive Special where
  | pc | ip | sp | rp
deriving DecidableEq, Repr

/-- The four special memory forms, mode 11 with an odd register code (30_encoding.md R83): "(PC+)/(-SP)",
"(IP+)/(-RP)", "(SP+)/(+SP)", "(RP+)/(+RP)", each read through its first and written through its second half. -/
inductive Form where
  | pcSp | ipRp | spSp | rpRp
deriving DecidableEq, Repr

/-- An operand: a mode and a register field (30_encoding.md R82, R83). -/
inductive Operand where
  /-- An, mode 00 -/
  | an (r : RegNum)
  /-- (An), mode 01 -/
  | mem (r : RegNum)
  /-- Dn, mode 10 -/
  | dn (r : RegNum)
  /-- PC, IP, SP or RP direct, mode 11 with an even register code -/
  | special (r : Special)
  /-- a special memory form, mode 11 with an odd register code -/
  | form (f : Form)
deriving DecidableEq, Repr

/-- The instructions. `z` is a size, `p` a precision, `dst` and `src` operands, `q` the quick field, `op`, `fn` and `m`
the free 3-bit fields. -/
inductive Instr where
  -- pair table D, source PC: the traps (45_system_ops.md R232)
  | brk (m : Code3)
  | trp (m : Code3)
  | hpr (m : Code3)
  | civ (m : Code3)
  -- pair table D, source IP (R260)
  | reserved (op : Code3)
  | systemDesign (op : Code3)
  -- the supervisor block (R264)
  | snp
  | sup
  | ein
  | din
  | wti
  | cls
  | rss
  | sil
  -- the hypervisor block (R273)
  | hnp
  | ssp
  | evm
  | dvm
  | cli
  | clh
  | rsh
  | hil
  -- pair table D, source SP or RP (R261)
  | reservedExtension (op : Code3) (dst src : Special)
  -- pair table F (R250, R262, R263)
  | com (n : BitVec 5)
  | userExtension (op : Code3) (dst : Special)
  | reservedVectorPrefix (op : Code3) (dst src : Special)
  -- the @ forms (R240 to R245)
  | atBrk (op : Code3) (src : Operand)
  | atTrp (op : Code3) (src : Operand)
  | atHvr (op : Code3) (src : Operand)
  | atCiv (op : Code3) (src : Operand)
  | atCom (n : BitVec 5) (src : Operand)
  -- float constant, float operations, float branches (43_float_ops.md)
  | fcn (op : BitVec 2) (p : Precision) (dst : Operand) (src : Special)
  | fdv (p : Precision) (dst src : Operand)
  | fad (p : Precision) (dst src : Operand)
  | fml (p : Precision) (dst src : Operand)
  | fsb (p : Precision) (dst src : Operand)
  | fbp (p : Precision) (dst : Operand) (q : Quick)
  | fbm (p : Precision) (dst : Operand) (q : Quick)
  | fbd (p : Precision) (dst : Operand) (q : Quick)
  | fbi (p : Precision) (dst : Operand) (q : Quick)
  -- the NOP set (30_encoding.md R102), in the table's order
  | mllNopDstRefused (z : Size) (src : Form)
  | mllNopSrcRefused (z : Size) (dst : Form)
  | mllNopDst (z : Size) (src : Operand)
  | mllNopSrc (z : Size) (dst : Operand)
  | andNopDstRefused (z : Size) (src : Form)
  | andNopSrcRefused (z : Size) (dst : Form)
  | andNopDst (z : Size) (src : Operand)
  | andNopSrc (z : Size) (dst : Operand)
  | orrNopDstRefused (z : Size) (src : Form)
  | orrNopSrcRefused (z : Size) (dst : Form)
  | orrNopDst (z : Size) (src : Operand)
  | orrNopSrc (z : Size) (dst : Operand)
  | xorNopDstRefused (z : Size) (src : Form)
  | xorNopSrcRefused (z : Size) (dst : Form)
  | xorNopDst (z : Size) (src : Operand)
  | xorNopSrc (z : Size) (dst : Operand)
  | mlqNop (z : Size) (q : Quick)
  | bplNopZeroRefused (z : Size)
  | bplNopMinusRefused (z : Size)
  | bplNop (z : Size) (q : Quick)
  | bmiNopZeroRefused (z : Size)
  | bmiNopMinusRefused (z : Size)
  | bmiNop (z : Size) (q : Quick)
  | bzeNopZeroRefused (z : Size)
  | bzeNopMinusRefused (z : Size)
  | bzeNop (z : Size) (q : Quick)
  | bnzNopZeroRefused (z : Size)
  | bnzNopMinusRefused (z : Size)
  | bnzNop (z : Size) (q : Quick)
  | halvesNop (z : Size) (fn : Code3)
  | fullsNop (z : Size) (fn : Code3)
  -- the exchanges (44_cfr.md R183)
  | pcx (z : Size) (dst : Operand)
  | ipx (z : Size) (dst : Operand)
  | spx (z : Size) (dst : Operand)
  | rpx (z : Size) (dst : Operand)
  -- the halves block (R190)
  | exh (z : Size) (dst : Operand)
  | sxl (z : Size) (dst : Operand)
  | inu (z : Size) (dst : Operand)
  | dcu (z : Size) (dst : Operand)
  | slt (z : Size) (dst : Operand)
  | srt (z : Size) (dst : Operand)
  | adu (z : Size) (dst : Operand)
  | sbu (z : Size) (dst : Operand)
  -- the fulls block (R200)
  | wto (dst : Operand)
  | wtoGroup (z : Size) (dst : Operand)
  | abs (z : Size) (dst : Operand)
  | sgn (z : Size) (dst : Operand)
  | not (z : Size) (dst : Operand)
  | cpl (z : Size) (dst : Operand)
  | clr (z : Size) (dst : Operand)
  | asr (z : Size) (dst : Operand)
  | lsr (z : Size) (dst : Operand)
  -- CFR proper (R180)
  | cfr (z : Size) (dst src : Operand)
  -- two-operand integer operations (40_integer_ops.md R120)
  | mov (z : Size) (dst src : Operand)
  | add (z : Size) (dst src : Operand)
  | mll (z : Size) (dst src : Operand)
  | sub (z : Size) (dst src : Operand)
  | and (z : Size) (dst src : Operand)
  | orr (z : Size) (dst src : Operand)
  | xor (z : Size) (dst src : Operand)
  -- quick operations (41_quick_ops.md R140)
  | mvq (z : Size) (dst : Operand) (q : Quick)
  | adq (z : Size) (dst : Operand) (q : Quick)
  | mlq (z : Size) (dst : Operand) (q : Quick)
  | sbq (z : Size) (dst : Operand) (q : Quick)
  -- quick branches (42_quick_branches.md R150)
  | bpl (z : Size) (dst : Operand) (q : Quick)
  | bmi (z : Size) (dst : Operand) (q : Quick)
  | bze (z : Size) (dst : Operand) (q : Quick)
  | bnz (z : Size) (dst : Operand) (q : Quick)
deriving DecidableEq, Repr

end Sys2Proof
end

