-- ==== Sys2Proof/Config.lean ====
section
/-! DEFINITION. What an implementation fixes (00_scope.md R5) and what the spec leaves uninterpreted: the floating-point
numerics `fnum` of 43_float_ops.md R160. A `fnum` constant has no body, so a claim about it holds for every
floating-point format. A Float pattern is the low 32 bits of a `Quad`. -/

namespace Sys2Proof

/-- `SHIFT_AMT`, the implicit count of ASR and LSR (00_scope.md R5, decision D38). -/
def Config.shiftAmt : Nat := 1

/-- Address units of 16 bits: operands of `n` bits occupy `step(n)` = n / 16 word addresses
(00_scope.md R7 with `AU` = 2, decision D5). -/
def Config.unitBits : Nat := 16

/-- `RESET_PC` (00_scope.md R5: OPEN). DESIGN CHOICE, unsafe: notes/assumptions/2.md. -/
def Config.resetPc : Quad := 0

/-- `fnum.div` (43_float_ops.md R160, R162). Free value: notes/assumptions/8.md. -/
opaque Config.fnumDiv : Precision → Quad → Quad → Quad

/-- `fnum.add` (43_float_ops.md R160, R163). Free value: notes/assumptions/8.md. -/
opaque Config.fnumAdd : Precision → Quad → Quad → Quad

/-- `fnum.mul` (43_float_ops.md R160, R164). Free value: notes/assumptions/8.md. -/
opaque Config.fnumMul : Precision → Quad → Quad → Quad

/-- `fnum.sub` (43_float_ops.md R160, R165). Free value: notes/assumptions/8.md. -/
opaque Config.fnumSub : Precision → Quad → Quad → Quad

/-- `fnum.is_plus` (43_float_ops.md R160, R167). Free value: notes/assumptions/8.md. -/
opaque Config.fnumIsPlus : Precision → Quad → Bool

/-- `fnum.is_minus` (43_float_ops.md R160, R168). Free value: notes/assumptions/8.md. -/
opaque Config.fnumIsMinus : Precision → Quad → Bool

/-- `fnum.is_denormal_or_zero` (43_float_ops.md R160, R169). Free value: notes/assumptions/8.md. -/
opaque Config.fnumIsDenormalOrZero : Precision → Quad → Bool

/-- `fnum.is_infinity` (43_float_ops.md R160, R170). Free value: notes/assumptions/8.md. -/
opaque Config.fnumIsInfinity : Precision → Quad → Bool

/-- `fnum.const` (43_float_ops.md R160, R171): the constant that FCN's `op` and source register select.
Free value: notes/assumptions/9.md. -/
opaque Config.fnumConst : Precision → BitVec 2 → Special → Quad

end Sys2Proof
end

