-- ==== Sys2Proof/Machine/State.lean ====
section
/-! DEFINITION. The state of the machine (10_state.md), the reasons a step can stop, and the state after power-on
(10_state.md R42, 70_reset_and_hazards.md R321). State is plain data. -/

namespace Sys2Proof.Machine

/-- The three privilege modes (10_state.md R29, 60_exceptions.md R300). -/
inductive Mode where
  | user | supervisor | hypervisor
deriving DecidableEq, Repr

/-- The trapping instructions with a vector of their own (60_exceptions.md R290). -/
inductive TrapCause where
  | brk | trp | hpr
deriving DecidableEq, Repr

/-- The two guaranteed-illegal encodings (60_exceptions.md R290). -/
inductive IllegalCause where
  | sil | hil
deriving DecidableEq, Repr

/-- Terminal outcomes that are not refusals (00_scope.md R8, 60_exceptions.md R304). -/
inductive Fault where
  /-- Raised by BRK, TRP and HPR: `Trap(cause, m)` of 45_system_ops.md R233 to R235. The run ends where the hardware
  would enter a handler (60_exceptions.md R304). Safe. -/
  | trap (cause : TrapCause) (m : Code3)
  /-- Raised by SIL and HIL: `Illegal(...)` of 45_system_ops.md R272 and R280. The run ends. Safe. -/
  | illegal (cause : IllegalCause)
  /-- Raised by any read or write of a word address that the platform does not map: the agent is stuck
  (20_memory.md R56). Safe. -/
  | outsideMemory (address : Quad)
  /-- Raised by a read of a mapped word that the launch memory and the run's stores gave no value: the agent is stuck
  (93_implementation_defined.md U1). Safe. -/
  | noValue (address : Quad)
deriving DecidableEq, Repr

/-- Refusals: `REFUSE(reason)` of 00_scope.md R8. Each errs toward unprovable, so each is safe. -/
inductive Refusal where
  /-- Raised by exec for an instruction that has no meaning yet. Safe. -/
  | notModelled (mnemonic : String)
  /-- Raised by a (P) or (H) instruction in too low a mode (60_exceptions.md R301). Safe. -/
  | privilege
  /-- Raised by the reserved spaces (45_system_ops.md R260 to R262). Safe. -/
  | reserved
  /-- Raised by fulls function 100 at .W and .L, the empty WTO group cells (30_encoding.md R103). Safe. -/
  | unassigned
  /-- Raised by an instruction that writes through "(+SP)" or "(+RP)" (30_encoding.md R92). Safe. -/
  | plusWriteForm
  /-- Raised when two operands move one pointer, or one reads a register the other moves (30_encoding.md R95), and by
  SPX and RPX on a form that moves the register they exchange (44_cfr.md R183). Safe. -/
  | samePointerTwice
  /-- Raised by the members of the NOP set whose operands would have a side effect (30_encoding.md R102). Safe. -/
  | nopWithSideEffect
  /-- Raised by a branch whose tested operand is an immediate (42_quick_branches.md R150). Safe. -/
  | branchOnImmediate
  /-- Raised by CFR proper (44_cfr.md R180). Safe. -/
  | cfrUnspecified
  /-- Raised by an exchange that is not 64 bits wide (44_cfr.md R183). Safe. -/
  | narrowExchange
  /-- Raised by a halves or fulls function on An or a special register at .W or .L (44_cfr.md R190). Safe. -/
  | narrowUnaryOnAddressRegister
  /-- Raised by SLT (44_cfr.md R195). Safe. -/
  | sltUnspecified
  /-- Raised by SRT (44_cfr.md R196). Safe. -/
  | srtUnspecified
  /-- Raised by ADU (44_cfr.md R197). Safe. -/
  | aduUnspecified
  /-- Raised by SBU (44_cfr.md R198). Safe. -/
  | sbuUnspecified
  /-- Raised by NOT (44_cfr.md R203). Safe. -/
  | notUnspecified
  /-- Raised by CPL (44_cfr.md R204). Safe. -/
  | cplUnspecified
  /-- Raised by WTO (44_cfr.md R205). Safe. -/
  | wtoUnspecified
  /-- Raised by CIV in every mode (45_system_ops.md R236). Safe. -/
  | civUnspecified
  /-- Raised by @BRK, @TRP, @HVR and @CIV (45_system_ops.md R241 to R244). Safe. -/
  | atFormUnspecified
  /-- Raised by COM and @COM (45_system_ops.md R245, R250). Safe. -/
  | com
  /-- Raised by WTI (45_system_ops.md R269). Safe. -/
  | wti
  /-- Raised by CLS and CLH (45_system_ops.md R270, R278). Safe. -/
  | trapReturnUnspecified
  /-- Raised by RSS and RSH (45_system_ops.md R271, R279). Safe. -/
  | resetUnspecified
  /-- Raised by EVM (45_system_ops.md R275) and by any memory access while translation is enabled
  (20_memory.md R57). Safe. -/
  | translationUnspecified
  /-- Raised by CLI (45_system_ops.md R277). Safe. -/
  | interruptsUnspecified
  /-- Raised when an instruction word or an immediate is taken from a word that the run has stored to
  (20_memory.md R61). Safe. -/
  | storeToCode
deriving DecidableEq, Repr

/-- Why an operation of the machine gives no state: one of the two kinds of terminal outcome of 00_scope.md R8. -/
inductive Stop where
  | fault (f : Fault)
  | refused (r : Refusal)
deriving DecidableEq, Repr

/-- Memory as (byte address, byte) pairs: the byte at 2a is w[15:8] and the byte at 2a + 1 is w[7:0] of the word at word
address a (20_memory.md R52). An address that no pair lists holds no value (notes/assumptions/6.md). -/
abbrev Memory := List Host.Cell

/-- A range of word addresses that the platform maps: `words` addresses from `base` on (20_memory.md R56). -/
structure Extent where
  base : Nat
  words : Nat
deriving DecidableEq, Repr

/-- The state of the machine (10_state.md R20 to R42). The last two fields are the model's own. -/
structure State where
  /-- A0 to A7 (10_state.md R20) -/
  a : Vector Quad 8
  /-- D0 to D7 (10_state.md R22) -/
  d : Vector Quad 8
  /-- PC, counted in 16-bit words (10_state.md R25) -/
  pc : Quad
  /-- IP (10_state.md R26) -/
  ip : Quad
  /-- SP (10_state.md R27) -/
  sp : Quad
  /-- RP (10_state.md R27) -/
  rp : Quad
  /-- privilege mode (10_state.md R29) -/
  mode : Mode
  /-- interrupt enable (10_state.md R30); one bit for all modes, where R30 leaves open whether it is per mode: DESIGN CHOICE,
  notes/assumptions/22.md -/
  interruptEnable : Bool
  /-- the numbers of the pending interrupts (10_state.md R31, 60_exceptions.md R295); a list without bound, where the spec
  gives no number of lines and no width: DESIGN CHOICE, notes/assumptions/23.md -/
  interruptPending : List Nat
  /-- virtual-memory enable (10_state.md R32) -/
  vmEnable : Bool
  /-- user page-table pointer (10_state.md R33) -/
  userPt : Quad
  /-- supervisor page-table pointer (10_state.md R33) -/
  superPt : Quad
  /-- the BRK vector (10_state.md R34) -/
  brkVector : Quad
  /-- the TRP vector (10_state.md R34) -/
  trpVector : Quad
  /-- the hypervisor-trap vector (10_state.md R34) -/
  hvrVector : Quad
  /-- the call-interrupt vector (10_state.md R34) -/
  civVector : Quad
  /-- the COM table, each entry a pair of instruction words, first word in bits 31:16 (10_state.md R35) -/
  comTable : Vector (BitVec 32) 32
  /-- the profile counters (10_state.md R36) -/
  profile : Vector Quad 8
  /-- the register specials (10_state.md R37) -/
  special : Vector Quad 8
  /-- the WTO pending target (10_state.md R39) -/
  wtoTarget : Option Operand
  /-- the entry number of the COM pair whose first instruction has executed (10_state.md R40) -/
  comPosition : Option (BitVec 5)
  /-- memory (10_state.md R42, 20_memory.md R50) -/
  memory : Memory
  /-- the model's own: the word addresses that exist, the extent of the launch memory (20_memory.md R56) -/
  platform : List Extent
  /-- the model's own: the word addresses this run has stored to, in rising order (20_memory.md R61) -/
  stored : List Nat
deriving DecidableEq, Repr

/-- The machine right after power-on. Register specials 1 to 7 are 0 and no WTO is pending, as 10_state.md R42 states;
every other value is the model's (notes/assumptions/1.md to 6.md). -/
def State.reset : State :=
  { a := Vector.replicate 8 0
    d := Vector.replicate 8 0
    pc := Config.resetPc
    ip := 0
    sp := 0
    rp := 0
    mode := .hypervisor
    interruptEnable := false
    interruptPending := []
    vmEnable := false
    userPt := 0
    superPt := 0
    brkVector := 0
    trpVector := 0
    hvrVector := 0
    civVector := 0
    comTable := Vector.replicate 32 0
    profile := Vector.replicate 8 0
    special := Vector.replicate 8 0
    wtoTarget := none
    comPosition := none
    memory := []
    platform := [{ base := 0, words := 2 ^ 64 }]
    stored := [] }

end Sys2Proof.Machine
end

