-- ==== Sys2Proof/Machine/Bits.lean ====
section
/-! DEFINITION. Bit slices and extensions (00_scope.md R6, R7). A value of `n` bits is a `Quad` whose bits from `n` on
are zero. -/

namespace Sys2Proof.Machine

/-- `trunc_n(v)`: the low `n` bits of `v`, zero above (00_scope.md R7). -/
def low (n : Nat) (v : Quad) : Quad := (v.setWidth n).setWidth 64

/-- `sext_64(v)` of the `n`-bit value in the low bits of `v` (00_scope.md R7). -/
def signExtendFrom (n : Nat) (v : Quad) : Quad := (v.setWidth n).signExtend 64

/-- `R[n-1:0] <- v`: `old` with its low `n` bits replaced by those of `v`, bits 63:n unchanged (00_scope.md R7,
10_state.md R23). -/
def insertLow (n : Nat) (old v : Quad) : Quad := (old >>> n <<< n) ||| low n v

/-- Bit `n - 1` of an `n`-bit value: its sign (00_scope.md R7, `signed`). -/
def signBit (n : Nat) (v : Quad) : Bool := v.getLsbD (n - 1)

/-- The upper half of an `n`-bit value, as a value of n/2 bits (44_cfr.md R190). -/
def upperHalf (n : Nat) (v : Quad) : Quad := low (n / 2) (v >>> (n / 2))

/-- The lower half of an `n`-bit value, as a value of n/2 bits (44_cfr.md R190). -/
def lowerHalf (n : Nat) (v : Quad) : Quad := low (n / 2) v

/-- The `n`-bit value of two halves, each taken modulo 2^(n/2) (44_cfr.md R190). -/
def joinHalves (n : Nat) (hi lo : Quad) : Quad := (low (n / 2) hi <<< (n / 2)) ||| low (n / 2) lo

/-- bits(size): 16, 32, 64 (30_encoding.md R85). -/
def sizeBits (z : Size) : Nat :=
  match z with
  | .w => 16
  | .l => 32
  | .q => 64

/-- Float 32, Double 64 (43_float_ops.md R160). -/
def precisionBits (p : Precision) : Nat :=
  match p with
  | .float => 32
  | .double => 64

/-- `step(size)`: the address units an operand of `n` bits occupies (00_scope.md R7). -/
def stepOf (n : Nat) : Nat := n / Config.unitBits

end Sys2Proof.Machine
end

