-- ==== Sys2Proof/Machine/Flags.lean ====
section
/-! DEFINITION. The machine has no flag, condition-code or predicate register (10_state.md R28). What a flag would hold
is computed by each branch from the operand it tests: the four conditions of 42_quick_branches.md R152 to R155 on a value
of `n` bits. -/

namespace Sys2Proof.Machine

/-- BPL: the sign bit is clear; zero counts as plus (42_quick_branches.md R152). -/
def condPlus (n : Nat) (t : Quad) : Bool := !signBit n t

/-- BMI: the sign bit is set (42_quick_branches.md R153). -/
def condMinus (n : Nat) (t : Quad) : Bool := signBit n t

/-- BZE: all `n` bits are zero (42_quick_branches.md R154). -/
def condZero (n : Nat) (t : Quad) : Bool := low n t == 0

/-- BNZ: some of the `n` bits is not zero (42_quick_branches.md R155). -/
def condNotZero (n : Nat) (t : Quad) : Bool := low n t != 0

end Sys2Proof.Machine
end

