-- ==== Sys2Proof/WellFormed.lean ====
section
/-! DEFINITION. Which field values each constructor of `Instr` may carry: exactly those whose word the opcode table
gives to that constructor's row and to no earlier row (30_encoding.md R97, R101, R102, R108). -/

namespace Sys2Proof

/-- The operand is PC direct (30_encoding.md R102). -/
def Operand.isPc (o : Operand) : Bool :=
  match o with
  | .special .pc => true
  | _ => false

/-- The operand is special direct: `dsp` and `ssp` of 30_encoding.md R83. -/
def Operand.isSpecial (o : Operand) : Bool :=
  match o with
  | .special _ => true
  | _ => false

/-- The operand is a special memory form, mode 11 with an odd register code (30_encoding.md R83). -/
def Operand.isForm (o : Operand) : Bool :=
  match o with
  | .form _ => true
  | _ => false

/-- The operand is one of the memory operands that "The src MUST be an address for CFR" admits
(30_encoding.md R101, last row). -/
def Operand.isMemory (o : Operand) : Bool :=
  match o with
  | .mem _ => true
  | .form _ => true
  | _ => false

/-- SP or RP: the two source columns of the reserved blocks (30_encoding.md R98, R99). -/
def Special.isStack (r : Special) : Bool :=
  match r with
  | .sp => true
  | .rp => true
  | _ => false

/-- Quick 0 and -1, the long-form markers of a branch (42_quick_branches.md R151). -/
def longMarker (q : Quick) : Bool := q == 0#5 || q == 31#5

/-- An instruction is well formed when some instruction word stands for it. -/
def Instr.wf (i : Instr) : Bool :=
  match i with
  | .brk _ | .trp _ | .hpr _ | .civ _ | .reserved _ | .systemDesign _ => true
  | .snp | .sup | .ein | .din | .wti | .cls | .rss | .sil => true
  | .hnp | .ssp | .evm | .dvm | .cli | .clh | .rsh | .hil => true
  | .reservedExtension _ _ src | .reservedVectorPrefix _ _ src => src.isStack
  | .com _ | .userExtension _ _ => true
  | .atBrk _ src | .atTrp _ src | .atHvr _ src | .atCiv _ src | .atCom _ src => !src.isSpecial
  | .fcn _ _ dst _ => !dst.isSpecial
  | .fdv _ dst src | .fad _ dst src | .fml _ dst src | .fsb _ dst src => !dst.isSpecial && !src.isSpecial
  | .fbp _ dst _ | .fbm _ dst _ | .fbd _ dst _ | .fbi _ dst _ => !dst.isSpecial
  | .mllNopDstRefused _ _ | .andNopDstRefused _ _ | .orrNopDstRefused _ _ | .xorNopDstRefused _ _ => true
  | .mllNopSrcRefused _ _ | .andNopSrcRefused _ _ | .orrNopSrcRefused _ _ | .xorNopSrcRefused _ _ => true
  | .mllNopDst _ src | .andNopDst _ src | .orrNopDst _ src | .xorNopDst _ src => !src.isForm
  | .mllNopSrc _ dst | .andNopSrc _ dst | .orrNopSrc _ dst | .xorNopSrc _ dst => !dst.isForm && !dst.isPc
  | .mlqNop _ _ => true
  | .bplNopZeroRefused _ | .bmiNopZeroRefused _ | .bzeNopZeroRefused _ | .bnzNopZeroRefused _ => true
  | .bplNopMinusRefused _ | .bmiNopMinusRefused _ | .bzeNopMinusRefused _ | .bnzNopMinusRefused _ => true
  | .bplNop _ q | .bmiNop _ q | .bzeNop _ q | .bnzNop _ q => !longMarker q
  | .halvesNop _ _ | .fullsNop _ _ => true
  | .pcx _ _ | .ipx _ _ | .spx _ _ | .rpx _ _ => true
  | .exh _ dst | .sxl _ dst | .inu _ dst | .dcu _ dst => !dst.isPc
  | .slt _ dst | .srt _ dst | .adu _ dst | .sbu _ dst => !dst.isPc
  | .wto dst => !dst.isPc
  | .wtoGroup z dst => z != .q && !dst.isPc
  | .abs _ dst | .sgn _ dst | .not _ dst | .cpl _ dst => !dst.isPc
  | .clr _ dst | .asr _ dst | .lsr _ dst => !dst.isPc
  | .cfr _ _ src => src.isMemory
  | .mov _ _ _ | .add _ _ _ | .sub _ _ _ => true
  | .mll _ dst src | .and _ dst src | .orr _ dst src | .xor _ dst src => !dst.isPc && !src.isPc
  | .mvq _ _ _ | .adq _ _ _ | .sbq _ _ _ => true
  | .mlq _ dst _ => !dst.isPc
  | .bpl _ dst _ | .bmi _ dst _ | .bze _ dst _ | .bnz _ dst _ => !dst.isPc

end Sys2Proof
end

