-- ==== Sys2Proof/Decode.lean ====
section
/-! DEFINITION. The decoder and, after it, the encoder, both written from 30_encoding.md R80 to R103. Every 16-bit word
stands for an instruction (R108), so the only input the decoder rejects is a stream that ends inside the instruction
word, which it rejects by name. Immediates are no part of the decoded instruction: they are read from the stream when
the instruction executes (10_state.md R25, 30_encoding.md R104). -/

namespace Sys2Proof

/-- Why a byte stream holds no instruction: it ends before the second byte of the instruction word. Safe. -/
inductive DecodeError where
  | truncated
deriving DecidableEq, Repr

/-- The five fields of an instruction word, `dmode`/`dreg` and `smode`/`sreg` each taken together
(30_encoding.md R80). -/
structure Fields where
  op : BitVec 3
  dst : BitVec 5
  sec : BitVec 1
  size : BitVec 2
  src : BitVec 5
deriving DecidableEq, Repr

/-- w[15:13], w[12:8], w[7], w[6:5], w[4:0] (30_encoding.md R80). -/
def fieldsOf (w : Word) : Fields :=
  { op := w.extractLsb' 13 3, dst := w.extractLsb' 8 5, sec := w.extractLsb' 7 1, size := w.extractLsb' 5 2,
    src := w.extractLsb' 0 5 }

/-- The special register of a 2-bit code: PC 00, IP 01, SP 10, RP 11 (30_encoding.md R83). -/
def decodeSpecial (c : BitVec 2) : Special :=
  match c with
  | 0#2 => .pc
  | 1#2 => .ip
  | 2#2 => .sp
  | _ => .rp

/-- The special memory form of a 2-bit code (30_encoding.md R83, odd register codes). -/
def decodeForm (c : BitVec 2) : Form :=
  match c with
  | 0#2 => .pcSp
  | 1#2 => .ipRp
  | 2#2 => .spSp
  | _ => .rpRp

/-- The operand of a mode and register field (30_encoding.md R82, R83). -/
def decodeOperand (f : BitVec 5) : Operand :=
  match f.extractLsb' 3 2 with
  | 0#2 => .an (f.extractLsb' 0 3).toFin
  | 1#2 => .mem (f.extractLsb' 0 3).toFin
  | 2#2 => .dn (f.extractLsb' 0 3).toFin
  | _ => if f.extractLsb' 0 1 = 0#1 then .special (decodeSpecial (f.extractLsb' 1 2)) else .form (decodeForm (f.extractLsb' 1 2))

/-- Size codes 00, 01, 10; the code 11 never reaches it (30_encoding.md R85, R89). -/
def decodeSize (c : BitVec 2) : Size :=
  match c with
  | 0#2 => .w
  | 1#2 => .l
  | _ => .q

/-- Secondary op 1 is Double, 0 Float (30_encoding.md R84). -/
def decodePrecision (c : BitVec 1) : Precision := if c = 1#1 then .double else .float

/-- The supervisor block by `op` (45_system_ops.md R264 to R272). -/
def decodeSupervisor (op : BitVec 3) : Instr :=
  match op with
  | 0#3 => .snp
  | 1#3 => .sup
  | 2#3 => .ein
  | 3#3 => .din
  | 4#3 => .wti
  | 5#3 => .cls
  | 6#3 => .rss
  | _ => .sil

/-- The hypervisor block by `op` (45_system_ops.md R273 to R280). -/
def decodeHypervisor (op : BitVec 3) : Instr :=
  match op with
  | 0#3 => .hnp
  | 1#3 => .ssp
  | 2#3 => .evm
  | 3#3 => .dvm
  | 4#3 => .cli
  | 5#3 => .clh
  | 6#3 => .rsh
  | _ => .hil

/-- Pair table D (30_encoding.md R98): both operands special direct, secondary op 1. -/
def decodePairD (op : BitVec 3) (dst src : Special) : Instr :=
  match src with
  | .pc =>
    match dst with
    | .pc => .brk op
    | .ip => .trp op
    | .sp => .hpr op
    | .rp => .civ op
  | .ip =>
    match dst with
    | .pc => .reserved op
    | .ip => .systemDesign op
    | .sp => decodeSupervisor op
    | .rp => decodeHypervisor op
  | .sp => .reservedExtension op dst .sp
  | .rp => .reservedExtension op dst .rp

/-- The entry number n = (op, w[10:9]) of COM and @COM (45_system_ops.md R245, R250). -/
def comNumber (op : BitVec 3) (dst : BitVec 5) : BitVec 5 := op ++ dst.extractLsb' 1 2

/-- Pair table F (30_encoding.md R99): both operands special direct, secondary op 0. -/
def decodePairF (op : BitVec 3) (dstField : BitVec 5) (dst src : Special) : Instr :=
  match src with
  | .pc => .com (comNumber op dstField)
  | .ip => .userExtension op dst
  | .sp => .reservedVectorPrefix op dst .sp
  | .rp => .reservedVectorPrefix op dst .rp

/-- The @ forms (30_encoding.md R100): destination special direct, source not. -/
def decodeAt (f : Fields) (dst : Special) (src : Operand) : Instr :=
  if f.sec = 1#1 then
    match dst with
    | .pc => .atBrk f.op src
    | .ip => .atTrp f.op src
    | .sp => .atHvr f.op src
    | .rp => .atCiv f.op src
  else .atCom (comNumber f.op f.dst) src

/-- The float map by `op` (30_encoding.md R97 case 4). -/
def decodeFloat (op : BitVec 3) (p : Precision) (dst : Operand) (srcField : BitVec 5) : Instr :=
  match op with
  | 0#3 => .fdv p dst (decodeOperand srcField)
  | 1#3 => .fad p dst (decodeOperand srcField)
  | 2#3 => .fml p dst (decodeOperand srcField)
  | 3#3 => .fsb p dst (decodeOperand srcField)
  | 4#3 => .fbp p dst srcField
  | 5#3 => .fbm p dst srcField
  | 6#3 => .fbd p dst srcField
  | _ => .fbi p dst srcField

/-- Size 11, in the precedence of 30_encoding.md R97: pair tables, @ forms, FCN, float map. -/
def decodeSizeThree (f : Fields) : Instr :=
  match decodeOperand f.dst with
  | .special dst =>
    match decodeOperand f.src with
    | .special src => if f.sec = 1#1 then decodePairD f.op dst src else decodePairF f.op f.dst dst src
    | src => decodeAt f dst src
  | dst =>
    match decodeOperand f.src with
    | .special src =>
      if f.op.extractLsb' 2 1 = 0#1 then .fcn (f.op.extractLsb' 0 2) (decodePrecision f.sec) dst src
      else decodeFloat f.op (decodePrecision f.sec) dst f.src
    | _ => decodeFloat f.op (decodePrecision f.sec) dst f.src

/-- The halves block by function number (44_cfr.md R190 to R198), with its NOP form (30_encoding.md R102). -/
def decodeHalves (z : Size) (dst : Operand) (fn : BitVec 3) : Instr :=
  if dst.isPc then .halvesNop z fn
  else
    match fn with
    | 0#3 => .exh z dst
    | 1#3 => .sxl z dst
    | 2#3 => .inu z dst
    | 3#3 => .dcu z dst
    | 4#3 => .slt z dst
    | 5#3 => .srt z dst
    | 6#3 => .adu z dst
    | _ => .sbu z dst

/-- The fulls block by function number (44_cfr.md R200 to R208), with its NOP form (30_encoding.md R102). -/
def decodeFulls (z : Size) (dst : Operand) (fn : BitVec 3) : Instr :=
  if dst.isPc then .fullsNop z fn
  else
    match fn with
    | 0#3 => .abs z dst
    | 1#3 => .sgn z dst
    | 2#3 => .not z dst
    | 3#3 => .cpl z dst
    | 4#3 => if z = .q then .wto dst else .wtoGroup z dst
    | 5#3 => .clr z dst
    | 6#3 => .asr z dst
    | _ => .lsr z dst

/-- CFR's sub-decode by its source operand (30_encoding.md R101); the function number is `sreg`. -/
def decodeCfr (z : Size) (dst src : Operand) (fn : BitVec 3) : Instr :=
  match src with
  | .an _ => decodeHalves z dst fn
  | .dn _ => decodeFulls z dst fn
  | .special .pc => .pcx z dst
  | .special .ip => .ipx z dst
  | .special .sp => .spx z dst
  | .special .rp => .rpx z dst
  | .mem _ => .cfr z dst src
  | .form _ => .cfr z dst src

/-- The five instructions that one of MLL, AND, ORR, XOR can decode to: the operation itself and the four groups of
30_encoding.md R102 (a), in the opcode table's order. -/
def decodeNopProne (z : Size) (dst src : Operand) (dstRefused srcRefused : Size → Form → Instr)
    (nopDst nopSrc : Size → Operand → Instr) (op : Size → Operand → Operand → Instr) : Instr :=
  if dst.isPc then
    match src with
    | .form f => dstRefused z f
    | _ => nopDst z src
  else if src.isPc then
    match dst with
    | .form f => srcRefused z f
    | _ => nopSrc z dst
  else op z dst src

/-- Column D at sizes .W, .L, .Q (30_encoding.md R89). -/
def decodeColumnD (z : Size) (f : Fields) : Instr :=
  let dst := decodeOperand f.dst
  let src := decodeOperand f.src
  match f.op with
  | 0#3 => .mov z dst src
  | 1#3 => .add z dst src
  | 2#3 => decodeNopProne z dst src .mllNopDstRefused .mllNopSrcRefused .mllNopDst .mllNopSrc .mll
  | 3#3 => .sub z dst src
  | 4#3 => decodeCfr z dst src (f.src.extractLsb' 0 3)
  | 5#3 => decodeNopProne z dst src .andNopDstRefused .andNopSrcRefused .andNopDst .andNopSrc .and
  | 6#3 => decodeNopProne z dst src .orrNopDstRefused .orrNopSrcRefused .orrNopDst .orrNopSrc .orr
  | _ => decodeNopProne z dst src .xorNopDstRefused .xorNopSrcRefused .xorNopDst .xorNopSrc .xor

/-- The four instructions that a quick branch word can decode to (30_encoding.md R102 (b)). -/
def decodeQuickBranch (z : Size) (dst : Operand) (q : Quick) (zeroRefused minusRefused : Size → Instr)
    (nop : Size → Quick → Instr) (branch : Size → Operand → Quick → Instr) : Instr :=
  if dst.isPc then
    if q = 0#5 then zeroRefused z else if q = 31#5 then minusRefused z else nop z q
  else branch z dst q

/-- Column F at sizes .W, .L, .Q (30_encoding.md R89). -/
def decodeColumnF (z : Size) (f : Fields) : Instr :=
  let dst := decodeOperand f.dst
  match f.op with
  | 0#3 => .mvq z dst f.src
  | 1#3 => .adq z dst f.src
  | 2#3 => if dst.isPc then .mlqNop z f.src else .mlq z dst f.src
  | 3#3 => .sbq z dst f.src
  | 4#3 => decodeQuickBranch z dst f.src .bplNopZeroRefused .bplNopMinusRefused .bplNop .bpl
  | 5#3 => decodeQuickBranch z dst f.src .bmiNopZeroRefused .bmiNopMinusRefused .bmiNop .bmi
  | 6#3 => decodeQuickBranch z dst f.src .bzeNopZeroRefused .bzeNopMinusRefused .bzeNop .bze
  | _ => decodeQuickBranch z dst f.src .bnzNopZeroRefused .bnzNopMinusRefused .bnzNop .bnz

/-- Decode from the fields: size 11 first, then the column of the secondary op (30_encoding.md R84, R89, R97). -/
def decodeFields (f : Fields) : Instr :=
  if f.size = 3#2 then decodeSizeThree f
  else if f.sec = 1#1 then decodeColumnD (decodeSize f.size) f
  else decodeColumnF (decodeSize f.size) f

/-- Decode one instruction word (30_encoding.md R108: every word is some row's). -/
def decodeWord (w : Word) : Instr := decodeFields (fieldsOf w)

/-- The word of two bytes, w[15:8] first in memory (30_encoding.md R81, 20_memory.md R52). -/
def wordOfBytes (hi lo : Byte) : Word := hi ++ lo

/-- The byte of a word that is first in memory, w[15:8] (30_encoding.md R81). -/
def hiByte (w : Word) : Byte := w.extractLsb' 8 8

/-- The byte of a word that is second in memory, w[7:0] (30_encoding.md R81). -/
def loByte (w : Word) : Byte := w.extractLsb' 0 8

/-- Decode a byte stream: the instruction and the rest of the stream, which begins with its immediates. -/
def decode (bytes : List Byte) : Except DecodeError (Instr × List Byte) :=
  match bytes with
  | hi :: lo :: rest => .ok (decodeWord (wordOfBytes hi lo), rest)
  | _ => .error .truncated

/-- The bytes of the five words of the longest instruction, each word big-endian, of which `w` gives the first `nbits`
bits, bit 0 of `w` being the least significant bit of the first word. -/
def tableBytes (nbits w : Nat) : List Byte :=
  (List.range 5).flatMap fun k =>
    let word : Word := BitVec.ofNat 16 (w % 2 ^ nbits / 2 ^ (16 * k))
    [hiByte word, loByte word]

/-- What the decoder reads from an opcode-table row's bits. -/
def decodeTableWord (nbits w : Nat) : Option Instr :=
  match decode (tableBytes nbits w) with
  | .ok (i, _) => some i
  | .error _ => none

/-! ## The encoder -/

/-- Code of a special register (30_encoding.md R83). -/
def encodeSpecial (r : Special) : BitVec 2 :=
  match r with
  | .pc => 0#2
  | .ip => 1#2
  | .sp => 2#2
  | .rp => 3#2

/-- Code of a special memory form (30_encoding.md R83). -/
def encodeForm (f : Form) : BitVec 2 :=
  match f with
  | .pcSp => 0#2
  | .ipRp => 1#2
  | .spSp => 2#2
  | .rpRp => 3#2

/-- A register number as its 3-bit field. -/
def encodeReg (r : RegNum) : BitVec 3 := BitVec.ofFin r

/-- Mode and register field of an operand (30_encoding.md R82, R83). -/
def encodeOperand (o : Operand) : BitVec 5 :=
  match o with
  | .an r => 0#2 ++ encodeReg r
  | .mem r => 1#2 ++ encodeReg r
  | .dn r => 2#2 ++ encodeReg r
  | .special r => 3#2 ++ (encodeSpecial r ++ 0#1)
  | .form f => 3#2 ++ (encodeForm f ++ 1#1)

/-- Size code (30_encoding.md R85). -/
def encodeSize (z : Size) : BitVec 2 :=
  match z with
  | .w => 0#2
  | .l => 1#2
  | .q => 2#2

/-- Secondary op of a precision (30_encoding.md R84). -/
def encodePrecision (p : Precision) : BitVec 1 :=
  match p with
  | .float => 0#1
  | .double => 1#1

/-- The word of its fields (30_encoding.md R80). -/
def wordOf (f : Fields) : Word := f.op ++ f.dst ++ f.sec ++ f.size ++ f.src

/-- Fields of a column D word at sizes .W, .L, .Q (30_encoding.md R89). -/
def columnD (op : BitVec 3) (z : Size) (dst src : Operand) : Fields :=
  { op := op, dst := encodeOperand dst, sec := 1#1, size := encodeSize z, src := encodeOperand src }

/-- Fields of a column F word at sizes .W, .L, .Q (30_encoding.md R89). -/
def columnF (op : BitVec 3) (z : Size) (dst : Operand) (q : Quick) : Fields :=
  { op := op, dst := encodeOperand dst, sec := 0#1, size := encodeSize z, src := q }

/-- Fields of a halves function: source mode An, function in `sreg` (44_cfr.md R190). -/
def halvesFields (fn : BitVec 3) (z : Size) (dst : Operand) : Fields :=
  { op := 4#3, dst := encodeOperand dst, sec := 1#1, size := encodeSize z, src := 0#2 ++ fn }

/-- Fields of a fulls function: source mode Dn, function in `sreg` (44_cfr.md R200). -/
def fullsFields (fn : BitVec 3) (z : Size) (dst : Operand) : Fields :=
  { op := 4#3, dst := encodeOperand dst, sec := 1#1, size := encodeSize z, src := 2#2 ++ fn }

/-- Fields of a pair-table word: size 11, both operands special direct (30_encoding.md R98, R99). -/
def pairFields (op : BitVec 3) (sec : BitVec 1) (dst src : Special) : Fields :=
  { op := op, dst := encodeOperand (.special dst), sec := sec, size := 3#2, src := encodeOperand (.special src) }

/-- Fields of a D @ form (30_encoding.md R100). -/
def atFields (op : BitVec 3) (dst : Special) (src : Operand) : Fields :=
  { op := op, dst := encodeOperand (.special dst), sec := 1#1, size := 3#2, src := encodeOperand src }

/-- The destination field of a COM word: special direct with w[10:9] the low bits of n (45_system_ops.md R250). -/
def comDst (n : BitVec 5) : BitVec 5 := 3#2 ++ (n.extractLsb' 0 2 ++ 0#1)

/-- Fields of COM and @COM, n = (w[15:13], w[10:9]) (45_system_ops.md R245, R250). -/
def comFields (n : BitVec 5) (src : BitVec 5) : Fields :=
  { op := n.extractLsb' 2 3, dst := comDst n, sec := 0#1, size := 3#2, src := src }

/-- Fields of a float operation or float branch (30_encoding.md R97 case 4). -/
def floatFields (op : BitVec 3) (p : Precision) (dst : Operand) (src : BitVec 5) : Fields :=
  { op := op, dst := encodeOperand dst, sec := encodePrecision p, size := 3#2, src := src }

/-- The fields of an instruction, row by row of spec/opcode_table.json. -/
def encodeFields (i : Instr) : Fields :=
  match i with
  | .brk m => pairFields m 1#1 .pc .pc
  | .trp m => pairFields m 1#1 .ip .pc
  | .hpr m => pairFields m 1#1 .sp .pc
  | .civ m => pairFields m 1#1 .rp .pc
  | .reserved op => pairFields op 1#1 .pc .ip
  | .systemDesign op => pairFields op 1#1 .ip .ip
  | .snp => pairFields 0#3 1#1 .sp .ip
  | .sup => pairFields 1#3 1#1 .sp .ip
  | .ein => pairFields 2#3 1#1 .sp .ip
  | .din => pairFields 3#3 1#1 .sp .ip
  | .wti => pairFields 4#3 1#1 .sp .ip
  | .cls => pairFields 5#3 1#1 .sp .ip
  | .rss => pairFields 6#3 1#1 .sp .ip
  | .sil => pairFields 7#3 1#1 .sp .ip
  | .hnp => pairFields 0#3 1#1 .rp .ip
  | .ssp => pairFields 1#3 1#1 .rp .ip
  | .evm => pairFields 2#3 1#1 .rp .ip
  | .dvm => pairFields 3#3 1#1 .rp .ip
  | .cli => pairFields 4#3 1#1 .rp .ip
  | .clh => pairFields 5#3 1#1 .rp .ip
  | .rsh => pairFields 6#3 1#1 .rp .ip
  | .hil => pairFields 7#3 1#1 .rp .ip
  | .reservedExtension op dst src => pairFields op 1#1 dst src
  | .com n => comFields n (encodeOperand (.special .pc))
  | .userExtension op dst => pairFields op 0#1 dst .ip
  | .reservedVectorPrefix op dst src => pairFields op 0#1 dst src
  | .atBrk op src => atFields op .pc src
  | .atTrp op src => atFields op .ip src
  | .atHvr op src => atFields op .sp src
  | .atCiv op src => atFields op .rp src
  | .atCom n src => comFields n (encodeOperand src)
  | .fcn op p dst src => floatFields (0#1 ++ op) p dst (encodeOperand (.special src))
  | .fdv p dst src => floatFields 0#3 p dst (encodeOperand src)
  | .fad p dst src => floatFields 1#3 p dst (encodeOperand src)
  | .fml p dst src => floatFields 2#3 p dst (encodeOperand src)
  | .fsb p dst src => floatFields 3#3 p dst (encodeOperand src)
  | .fbp p dst q => floatFields 4#3 p dst q
  | .fbm p dst q => floatFields 5#3 p dst q
  | .fbd p dst q => floatFields 6#3 p dst q
  | .fbi p dst q => floatFields 7#3 p dst q
  | .mllNopDstRefused z src => columnD 2#3 z (.special .pc) (.form src)
  | .mllNopSrcRefused z dst => columnD 2#3 z (.form dst) (.special .pc)
  | .mllNopDst z src => columnD 2#3 z (.special .pc) src
  | .mllNopSrc z dst => columnD 2#3 z dst (.special .pc)
  | .andNopDstRefused z src => columnD 5#3 z (.special .pc) (.form src)
  | .andNopSrcRefused z dst => columnD 5#3 z (.form dst) (.special .pc)
  | .andNopDst z src => columnD 5#3 z (.special .pc) src
  | .andNopSrc z dst => columnD 5#3 z dst (.special .pc)
  | .orrNopDstRefused z src => columnD 6#3 z (.special .pc) (.form src)
  | .orrNopSrcRefused z dst => columnD 6#3 z (.form dst) (.special .pc)
  | .orrNopDst z src => columnD 6#3 z (.special .pc) src
  | .orrNopSrc z dst => columnD 6#3 z dst (.special .pc)
  | .xorNopDstRefused z src => columnD 7#3 z (.special .pc) (.form src)
  | .xorNopSrcRefused z dst => columnD 7#3 z (.form dst) (.special .pc)
  | .xorNopDst z src => columnD 7#3 z (.special .pc) src
  | .xorNopSrc z dst => columnD 7#3 z dst (.special .pc)
  | .mlqNop z q => columnF 2#3 z (.special .pc) q
  | .bplNopZeroRefused z => columnF 4#3 z (.special .pc) 0#5
  | .bplNopMinusRefused z => columnF 4#3 z (.special .pc) 31#5
  | .bplNop z q => columnF 4#3 z (.special .pc) q
  | .bmiNopZeroRefused z => columnF 5#3 z (.special .pc) 0#5
  | .bmiNopMinusRefused z => columnF 5#3 z (.special .pc) 31#5
  | .bmiNop z q => columnF 5#3 z (.special .pc) q
  | .bzeNopZeroRefused z => columnF 6#3 z (.special .pc) 0#5
  | .bzeNopMinusRefused z => columnF 6#3 z (.special .pc) 31#5
  | .bzeNop z q => columnF 6#3 z (.special .pc) q
  | .bnzNopZeroRefused z => columnF 7#3 z (.special .pc) 0#5
  | .bnzNopMinusRefused z => columnF 7#3 z (.special .pc) 31#5
  | .bnzNop z q => columnF 7#3 z (.special .pc) q
  | .halvesNop z fn => halvesFields fn z (.special .pc)
  | .fullsNop z fn => fullsFields fn z (.special .pc)
  | .pcx z dst => columnD 4#3 z dst (.special .pc)
  | .ipx z dst => columnD 4#3 z dst (.special .ip)
  | .spx z dst => columnD 4#3 z dst (.special .sp)
  | .rpx z dst => columnD 4#3 z dst (.special .rp)
  | .exh z dst => halvesFields 0#3 z dst
  | .sxl z dst => halvesFields 1#3 z dst
  | .inu z dst => halvesFields 2#3 z dst
  | .dcu z dst => halvesFields 3#3 z dst
  | .slt z dst => halvesFields 4#3 z dst
  | .srt z dst => halvesFields 5#3 z dst
  | .adu z dst => halvesFields 6#3 z dst
  | .sbu z dst => halvesFields 7#3 z dst
  | .wto dst => fullsFields 4#3 .q dst
  | .wtoGroup z dst => fullsFields 4#3 z dst
  | .abs z dst => fullsFields 0#3 z dst
  | .sgn z dst => fullsFields 1#3 z dst
  | .not z dst => fullsFields 2#3 z dst
  | .cpl z dst => fullsFields 3#3 z dst
  | .clr z dst => fullsFields 5#3 z dst
  | .asr z dst => fullsFields 6#3 z dst
  | .lsr z dst => fullsFields 7#3 z dst
  | .cfr z dst src => columnD 4#3 z dst src
  | .mov z dst src => columnD 0#3 z dst src
  | .add z dst src => columnD 1#3 z dst src
  | .mll z dst src => columnD 2#3 z dst src
  | .sub z dst src => columnD 3#3 z dst src
  | .and z dst src => columnD 5#3 z dst src
  | .orr z dst src => columnD 6#3 z dst src
  | .xor z dst src => columnD 7#3 z dst src
  | .mvq z dst q => columnF 0#3 z dst q
  | .adq z dst q => columnF 1#3 z dst q
  | .mlq z dst q => columnF 2#3 z dst q
  | .sbq z dst q => columnF 3#3 z dst q
  | .bpl z dst q => columnF 4#3 z dst q
  | .bmi z dst q => columnF 5#3 z dst q
  | .bze z dst q => columnF 6#3 z dst q
  | .bnz z dst q => columnF 7#3 z dst q

/-- The instruction word of a well-formed instruction. -/
def encode (i : Instr) : Word := wordOf (encodeFields i)

/-- The bytes of the instruction word as memory holds them (30_encoding.md R81). -/
def encodeBytes (i : Instr) : List Byte := [hiByte (encode i), loByte (encode i)]

end Sys2Proof
end

