-- ==== Sys2Proof/Machine/Memory.lean ====
section
/-! DEFINITION. Memory as a list of (byte address, byte) pairs in one canonical form: addresses strictly rising, all
inside the address space. An unlisted address holds no value, so no pair equals what an unlisted address reads as. -/

namespace Sys2Proof.Machine

/-- The byte at a byte address, if the memory gives it a value. -/
def Memory.byteAt (m : Memory) (address : Nat) : Option Byte :=
  match m with
  | [] => none
  | cell :: rest => if cell.1 = address then some cell.2 else Memory.byteAt rest address

/-- The memory with one byte written, in canonical form if it was. -/
def Memory.putByte (m : Memory) (address : Nat) (value : Byte) : Memory :=
  match m with
  | [] => [(address, value)]
  | cell :: rest =>
    if address < cell.1 then (address, value) :: cell :: rest
    else if address = cell.1 then (address, value) :: rest
    else cell :: Memory.putByte rest address value

/-- The word at a word address: its high byte at 2a, its low byte at 2a + 1 (20_memory.md R52). -/
def Memory.wordAt (m : Memory) (address : Quad) : Option Word :=
  match m.byteAt (2 * address.toNat), m.byteAt (2 * address.toNat + 1) with
  | some hi, some lo => some (wordOfBytes hi lo)
  | _, _ => none

/-- The memory with one word written (20_memory.md R52). -/
def Memory.putWord (m : Memory) (address : Quad) (value : Word) : Memory :=
  (m.putByte (2 * address.toNat) (hiByte value)).putByte (2 * address.toNat + 1) (loByte value)

/-- Strictly rising numbers. -/
def rising (l : List Nat) : Bool :=
  match l with
  | [] => true
  | [_] => true
  | x :: y :: rest => decide (x < y) && rising (y :: rest)

/-- The canonical form: byte addresses strictly rising and inside the address space of 2^64 words. -/
def Memory.wf (m : Memory) : Bool :=
  rising (m.map Prod.fst) && m.all fun cell => decide (cell.1 < 2 ^ 65)

/-- A strictly rising list with one number added. -/
def insertRising (x : Nat) (l : List Nat) : List Nat :=
  match l with
  | [] => [x]
  | y :: rest => if x < y then x :: y :: rest else if x = y then y :: rest else y :: insertRising x rest

end Sys2Proof.Machine
end

