-- ==== Sys2Proof/Machine/Ops.lean ====
section
/-! DEFINITION. The named operations over registers and memory, the privilege check, and the trap outcomes. Every read
and write of a register or of memory goes through this file. -/

namespace Sys2Proof.Machine

/-- The outcome of an operation that ends an instruction. -/
def finish (r : Except Stop State) : Host.Outcome State Fault Refusal :=
  match r with
  | .ok s => .next s
  | .error (.fault f) => .fault f
  | .error (.refused x) => .refused x

/-- `REFUSE(reason)` (00_scope.md R8). -/
def refuse {α : Type} (r : Refusal) : Except Stop α := .error (.refused r)

/-! ## Registers -/

/-- Read of An (00_scope.md R7). -/
def State.getA (s : State) (r : RegNum) : Quad := s.a[r]

/-- Read of Dn (00_scope.md R7). -/
def State.getD (s : State) (r : RegNum) : Quad := s.d[r]

/-- Read of a special register; PC as it stands during execution (10_state.md R24, R25). -/
def State.getSpecial (s : State) (r : Special) : Quad :=
  match r with
  | .pc => s.pc
  | .ip => s.ip
  | .sp => s.sp
  | .rp => s.rp

/-- Write of all of An (00_scope.md R7). -/
def State.setA (s : State) (r : RegNum) (v : Quad) : State := { s with a := s.a.set r v }

/-- Write of all of Dn (00_scope.md R7). -/
def State.setD (s : State) (r : RegNum) (v : Quad) : State := { s with d := s.d.set r v }

/-- Write of PC: a jump (10_state.md R25). -/
def State.setPc (s : State) (v : Quad) : State := { s with pc := v }

/-- Write of IP (10_state.md R26). -/
def State.setIp (s : State) (v : Quad) : State := { s with ip := v }

/-- Write of SP (10_state.md R27). -/
def State.setSp (s : State) (v : Quad) : State := { s with sp := v }

/-- Write of RP (10_state.md R27). -/
def State.setRp (s : State) (v : Quad) : State := { s with rp := v }

/-- Write of a special register (10_state.md R24). -/
def State.setSpecial (s : State) (r : Special) (v : Quad) : State :=
  match r with
  | .pc => s.setPc v
  | .ip => s.setIp v
  | .sp => s.setSp v
  | .rp => s.setRp v

/-- Write of the interrupt-enable bit (10_state.md R30). -/
def State.setInterruptEnable (s : State) (v : Bool) : State := { s with interruptEnable := v }

/-- Write of the virtual-memory enable bit (10_state.md R32). -/
def State.setVmEnable (s : State) (v : Bool) : State := { s with vmEnable := v }

/-- Write of the user page-table pointer (10_state.md R33). -/
def State.setUserPt (s : State) (v : Quad) : State := { s with userPt := v }

/-- Write of the supervisor page-table pointer (10_state.md R33). -/
def State.setSuperPt (s : State) (v : Quad) : State := { s with superPt := v }

/-! ## Memory -/

/-- The word address lies in a range that the platform maps (20_memory.md R56). -/
def State.mapped (s : State) (address : Quad) : Bool :=
  s.platform.any fun e => decide (e.base ≤ address.toNat) && decide (address.toNat < e.base + e.words)

/-- One word stored: memory changes and the word counts as stored to (20_memory.md R61). -/
def State.storeWord (s : State) (address : Quad) (w : Word) : State :=
  { s with memory := s.memory.putWord address w, stored := insertRising address.toNat s.stored }

/-- The word at `address` has been stored to by this run (20_memory.md R61). -/
def State.isStored (s : State) (address : Quad) : Bool := s.stored.contains address.toNat

/-- What every access checks: translation is off (20_memory.md R57) and the word exists (20_memory.md R56). -/
def checkAccess (s : State) (address : Quad) : Except Stop Unit :=
  if s.vmEnable then refuse .translationUnspecified
  else if s.mapped address then .ok ()
  else .error (.fault (.outsideMemory address))

/-- `MemRead(a, 16)` (20_memory.md R52). -/
def readWord (s : State) (address : Quad) : Except Stop Word := do
  checkAccess s address
  match s.memory.wordAt address with
  | some w => .ok w
  | none => .error (.fault (.noValue address))

/-- `MemWrite(a, 16, v)` (20_memory.md R52). -/
def writeWord (s : State) (address : Quad) (w : Word) : Except Stop State := do
  checkAccess s address
  .ok (s.storeWord address w)

/-- `MemRead(a, 16 * k)`: `k` words in increasing address order, the word at the lowest address the most significant;
addresses modulo 2^64 (20_memory.md R52, R55). -/
def readWords (s : State) (address : Quad) (k : Nat) : Except Stop Quad :=
  match k with
  | 0 => .ok 0
  | k + 1 => do
    let upper ← readWords s address k
    let w ← readWord s (address + BitVec.ofNat 64 k)
    .ok ((upper <<< 16) ||| w.setWidth 64)

/-- `MemWrite(a, 16 * k, v)`: `k` words in increasing address order, the most significant at the lowest address
(20_memory.md R52, R55). -/
def writeWords (s : State) (address : Quad) (k : Nat) (v : Quad) : Except Stop State :=
  match k with
  | 0 => .ok s
  | k + 1 => do
    let s1 ← writeWords s address k (v >>> 16)
    writeWord s1 (address + BitVec.ofNat 64 k) (v.setWidth 16)

/-- One of the `k` words from `address` on has been stored to by this run (20_memory.md R61). -/
def State.anyStored (s : State) (address : Quad) (k : Nat) : Bool :=
  match k with
  | 0 => false
  | k + 1 => s.anyStored address k || s.isStored (address + BitVec.ofNat 64 k)

/-- `MemRead(PC, 16 * k); PC <- PC + k`: `k` words of the instruction stream (10_state.md R25, 30_encoding.md R91).
A word the run has stored to is not taken from the stream (20_memory.md R61). -/
def streamRead (s : State) (k : Nat) : Except Stop (Quad × State) := do
  let v ← readWords s s.pc k
  if s.anyStored s.pc k then refuse .storeToCode
  else .ok (v, s.setPc (s.pc + BitVec.ofNat 64 k))

/-- Fetch of the instruction word: `w <- MemRead(PC, 16); PC <- PC + 1` (10_state.md R25). -/
def fetch (s : State) : Except Stop (Word × State) := do
  let (v, s1) ← streamRead s 1
  .ok (v.setWidth 16, s1)

/-! ## Privilege -/

/-- The modes in rising order of privilege (60_exceptions.md R300). -/
def Mode.level (m : Mode) : Nat :=
  match m with
  | .user => 0
  | .supervisor => 1
  | .hypervisor => 2

/-- A mode may execute what a lower mode may (60_exceptions.md R300, decision D26). -/
def Mode.atLeast (m required : Mode) : Bool := decide (required.level ≤ m.level)

/-- `action` in mode `required` or above, else `REFUSE(privilege)` (60_exceptions.md R301). -/
def privileged (required : Mode) (s : State) (action : Except Stop State) : Except Stop State :=
  if s.mode.atLeast required then action else refuse .privilege

/-! ## Taking a trap and returning from one -/

/-- Trap entry. 60_exceptions.md R304 gives no saved state and no mode, and makes BRK, TRP and HPR terminal:
`Trap(cause, m)`. -/
def takeTrap (cause : TrapCause) (m : Code3) : Except Stop State := .error (.fault (.trap cause m))

/-- The illegal outcome of SIL and HIL (60_exceptions.md R304). -/
def takeIllegal (cause : IllegalCause) : Except Stop State := .error (.fault (.illegal cause))

/-- Trap return. CLS and CLH are the only candidates and 60_exceptions.md R306 gives neither a restored PC nor a restored
mode: `REFUSE(trap_return_unspecified)` (45_system_ops.md R270, R278). -/
def returnFromTrap : Except Stop State := refuse .trapReturnUnspecified

end Sys2Proof.Machine
end

