-- ==== Sys2Proof/Machine/Operands.lean ====
section
/-! DEFINITION. Operand access (30_encoding.md R90 to R95): reading a source, reading and writing a destination, every
form, with its pointer updates and its refusals. `n` is the operand width `s` = bits(size); `opw` is the operation width
of 30_encoding.md R93. -/

namespace Sys2Proof.Machine

/-- The pointer a special memory form reads through and then increases (30_encoding.md R91). -/
def readPointer (f : Form) : Special :=
  match f with
  | .pcSp => .pc
  | .ipRp => .ip
  | .spSp => .sp
  | .rpRp => .rp

/-- The pointer a special memory form decreases and then writes through; "(+SP)" and "(+RP)" have no write meaning
(30_encoding.md R92). -/
def writePointer (f : Form) : Option Special :=
  match f with
  | .pcSp => some .sp
  | .ipRp => some .rp
  | .spSp => none
  | .rpRp => none

/-- The address a push of `n` bits through pointer `p` stores to: `p - step(n)` (30_encoding.md R92). -/
def pushAddress (s : State) (p : Special) (n : Nat) : Quad := s.getSpecial p - BitVec.ofNat 64 (stepOf n)

/-- The address that a write of `n` bits to `dst` stores to; none for a destination that is a register. -/
def storeAddress (s : State) (dst : Operand) (n : Nat) : Option Quad :=
  match dst with
  | .mem r => some (s.getA r)
  | .form f => (writePointer f).map fun p => pushAddress s p n
  | .an _ | .dn _ | .special _ => none

/-- The read half of a special memory form: the value at the pointer, the pointer then increased by `step(n)`; through
PC it is an immediate of the instruction stream (30_encoding.md R91). -/
def readForm (s : State) (f : Form) (n : Nat) : Except Stop (Quad × State) :=
  match readPointer f with
  | .pc => streamRead s (stepOf n)
  | p => do
    let v ← readWords s (s.getSpecial p) (stepOf n)
    .ok (v, s.setSpecial p (s.getSpecial p + BitVec.ofNat 64 (stepOf n)))

/-- `ReadSrc(smode, sreg, s)`: an `n`-bit value (30_encoding.md R90, R91). -/
def readSrc (s : State) (src : Operand) (n : Nat) : Except Stop (Quad × State) :=
  match src with
  | .an r => .ok (low n (s.getA r), s)
  | .mem r => do
    let v ← readWords s (s.getA r) (stepOf n)
    .ok (v, s)
  | .dn r => .ok (low n (s.getD r), s)
  | .special r => .ok (low n (s.getSpecial r), s)
  | .form f => readForm s f n

/-- `opw` of an integer operation: 64 for An and special direct, else `n` (30_encoding.md R93). -/
def opWidth (dst : Operand) (n : Nat) : Nat :=
  match dst with
  | .an _ => 64
  | .special _ => 64
  | .mem _ | .dn _ | .form _ => n

/-- `sext_opw` of an `n`-bit source value (30_encoding.md R93). -/
def widen (opw n : Nat) (v : Quad) : Quad := low opw (signExtendFrom n v)

/-- `ReadDst(dmode, dreg, s)`: an `opw`-bit value (30_encoding.md R94). A destination "(SP+)" or "(RP+)" pops; the
instructions that also write their destination have refused it before (`checkWriteForm`). -/
def readDst (s : State) (dst : Operand) (n opw : Nat) : Except Stop (Quad × State) :=
  match dst with
  | .an r => .ok (low opw (s.getA r), s)
  | .mem r => do
    let v ← readWords s (s.getA r) (stepOf n)
    .ok (v, s)
  | .dn r => .ok (low n (s.getD r), s)
  | .special r => .ok (low opw (s.getSpecial r), s)
  | .form f => readForm s f n

/-- `WriteDst(dmode, dreg, s, v)` (30_encoding.md R92). A register destination has its low `opw` bits written, which is
all of An and of a special register in every integer operation (30_encoding.md R93). -/
def writeDst (s : State) (dst : Operand) (n opw : Nat) (v : Quad) : Except Stop State :=
  match dst with
  | .an r => .ok (s.setA r (insertLow opw (s.getA r) v))
  | .mem r => writeWords s (s.getA r) (stepOf n) v
  | .dn r => .ok (s.setD r (insertLow n (s.getD r) v))
  | .special r => .ok (s.setSpecial r (insertLow opw (s.getSpecial r) v))
  | .form f =>
    match writePointer f with
    | some p => writeWords (s.setSpecial p (pushAddress s p n)) (pushAddress s p n) (stepOf n) v
    | none => refuse .plusWriteForm

/-- What an instruction does to its destination. -/
inductive DstUse where
  /-- writes it without reading it ("No dest read") -/
  | write
  /-- reads it and then writes it -/
  | modify
deriving DecidableEq, Repr

/-- `REFUSE(plus_write_form)` for an instruction that writes its destination (30_encoding.md R92, R94). -/
def checkWriteForm (dst : Operand) : Except Stop Unit :=
  match dst with
  | .form .spSp => refuse .plusWriteForm
  | .form .rpRp => refuse .plusWriteForm
  | _ => .ok ()

/-- The pointer that a source operand updates (30_encoding.md R95). -/
def srcPointer (src : Operand) : Option Special :=
  match src with
  | .form f => some (readPointer f)
  | _ => none

/-- A destination operand updates pointer `p` (30_encoding.md R95): by its write half, and by its read half when it is
read. -/
def dstUpdates (use : DstUse) (dst : Operand) (p : Special) : Bool :=
  match dst with
  | .form f => writePointer f == some p || (use == .modify && readPointer f == p)
  | _ => false

/-- 30_encoding.md R95: (a) both operands update one pointer, or (b) one operand reads a special register direct whose
value the other updates. -/
def samePointer (use : DstUse) (dst src : Operand) : Bool :=
  match src with
  | .form f => dstUpdates use dst (readPointer f) || (use == .modify && dst == .special (readPointer f))
  | .special r => dstUpdates use dst r
  | .an _ | .mem _ | .dn _ => false

/-- `REFUSE(same_pointer_twice)` (30_encoding.md R95). -/
def checkPointers (use : DstUse) (dst src : Operand) : Except Stop Unit :=
  if samePointer use dst src then refuse .samePointerTwice else .ok ()

end Sys2Proof.Machine
end

