-- ==== Sys2Proof/Machine/Templates.lean ====
section
/-! DEFINITION. The common templates of the instruction families, each in the order of evaluation of 30_encoding.md R95:
source read, destination read, result, destination write. Instruction meanings are one line over these. -/

namespace Sys2Proof.Machine

/-- The template of 40_integer_ops.md R120 and 43_float_ops.md R161 for an instruction that reads its destination:
`dst <- f(dst, src)` over `opw` bits. -/
def modifyOp (f : Quad → Quad → Quad) (n opw : Nat) (dst src : Operand) (s : State) : Except Stop State := do
  checkWriteForm dst
  checkPointers .modify dst src
  let (b, s1) ← readSrc s src n
  let (a, s2) ← readDst s1 dst n opw
  writeDst s2 dst n opw (low opw (f a (widen opw n b)))

/-- The template of 40_integer_ops.md R120 for MOV, which does not read its destination. -/
def moveOp (n opw : Nat) (dst src : Operand) (s : State) : Except Stop State := do
  checkWriteForm dst
  checkPointers .write dst src
  let (b, s1) ← readSrc s src n
  writeDst s1 dst n opw (widen opw n b)

/-- `WriteDst` of a value that needs no operand: MVQ (41_quick_ops.md R141), CLR (44_cfr.md R206), FCN
(43_float_ops.md R171). -/
def setOp (v : Quad) (n opw : Nat) (dst : Operand) (s : State) : Except Stop State := do
  checkWriteForm dst
  writeDst s dst n opw (low opw v)

/-- The quick constant: 1 to 32, "0 equals 32", zero-extended (30_encoding.md R96). -/
def quickConstant (q : Quick) : Quad := if q = 0#5 then 32 else q.setWidth 64

/-- The template of 41_quick_ops.md R140 for a quick operation that reads its destination. -/
def quickOp (f : Quad → Quad → Quad) (n opw : Nat) (dst : Operand) (q : Quick) (s : State) : Except Stop State := do
  checkWriteForm dst
  let (a, s1) ← readDst s dst n opw
  writeDst s1 dst n opw (low opw (f a (quickConstant q)))

/-- `REFUSE(narrow_unary_on_address_register)`: a halves or fulls function on An or a special register below 64 bits
(44_cfr.md R190, R200). -/
def checkUnaryWidth (n : Nat) (dst : Operand) : Except Stop Unit :=
  if opWidth dst n = n then .ok () else refuse .narrowUnaryOnAddressRegister

/-- The template of the halves and fulls functions that read their operand (44_cfr.md R190, R200). -/
def unaryOp (f : Nat → Quad → Quad) (n : Nat) (dst : Operand) (s : State) : Except Stop State := do
  checkWriteForm dst
  checkUnaryWidth n dst
  let (v, s1) ← readDst s dst n n
  writeDst s1 dst n n (low n (f n v))

/-- An exchange is admitted only when it is 64 bits wide (44_cfr.md R183). -/
def checkExchangeWidth (n : Nat) (dst : Operand) : Except Stop Unit :=
  if opWidth dst n = 64 then .ok () else refuse .narrowExchange

/-- A destination whose pointer update touches the exchanged register is refused, except for PCX on "(PC+)/(-SP)" and
IPX on "(IP+)/(-RP)" (44_cfr.md R183 to R187). -/
def checkExchangePointer (x : Special) (dst : Operand) : Except Stop Unit :=
  match dst, x with
  | .form .pcSp, .sp => refuse .samePointerTwice
  | .form .ipRp, .rp => refuse .samePointerTwice
  | _, _ => .ok ()

/-- The template of the exchanges: the destination is read through its read form, receives the special register through
its write form, and the special register receives what was read (44_cfr.md R183). -/
def exchangeOp (x : Special) (n : Nat) (dst : Operand) (s : State) : Except Stop State := do
  checkWriteForm dst
  checkExchangeWidth n dst
  checkExchangePointer x dst
  let (new, s1) ← readDst s dst n (opWidth dst n)
  let s2 ← writeDst s1 dst n (opWidth dst n) (s1.getSpecial x)
  .ok (s2.setSpecial x new)

/-- `REFUSE(branch_on_immediate)` (42_quick_branches.md R150). -/
def checkTested (dst : Operand) : Except Stop Unit :=
  match dst with
  | .form .pcSp => refuse .branchOnImmediate
  | _ => .ok ()

/-- The displacement in words, and the state after the d16 if one follows: quick 0 and -1 announce a d16 and give its
sign (42_quick_branches.md R150, R151). -/
def displacement (q : Quick) (s : State) : Except Stop (Quad × State) :=
  if q = 0#5 then streamRead s 1
  else if q = 31#5 then do
    let (d16, s1) ← streamRead s 1
    .ok (d16 - 65536, s1)
  else .ok (q.signExtend 64, s)

/-- The template of the branches (42_quick_branches.md R150, 43_float_ops.md R166): the base is the address after the
instruction word, taken before the tested operand is read. -/
def branchOp (cond : Quad → Bool) (n opw : Nat) (dst : Operand) (q : Quick) (s : State) : Except Stop State := do
  checkTested dst
  let (t, s1) ← readDst s dst n opw
  let (disp, s2) ← displacement q s1
  .ok (if cond t then s2.setPc (s.pc + disp) else s2)

/-- `NOP`: PC is already past the instruction word, nothing else changes (00_scope.md R8, 30_encoding.md R102). -/
def nopOp (s : State) : Except Stop State := .ok s

end Sys2Proof.Machine
end

