-- ==== Sys2Proof/Machine/Branches.lean ====
section
/-! DEFINITION. The quick branches (42_quick_branches.md R150 to R155). -/

namespace Sys2Proof.Machine

/-- BPL (42_quick_branches.md R152). -/
def execBpl (z : Size) (dst : Operand) (q : Quick) (s : State) : Host.Outcome State Fault Refusal :=
  finish (branchOp (condPlus (opWidth dst (sizeBits z))) (sizeBits z) (opWidth dst (sizeBits z)) dst q s)

/-- BMI (42_quick_branches.md R153). -/
def execBmi (z : Size) (dst : Operand) (q : Quick) (s : State) : Host.Outcome State Fault Refusal :=
  finish (branchOp (condMinus (opWidth dst (sizeBits z))) (sizeBits z) (opWidth dst (sizeBits z)) dst q s)

/-- BZE (42_quick_branches.md R154). -/
def execBze (z : Size) (dst : Operand) (q : Quick) (s : State) : Host.Outcome State Fault Refusal :=
  finish (branchOp (condZero (opWidth dst (sizeBits z))) (sizeBits z) (opWidth dst (sizeBits z)) dst q s)

/-- BNZ (42_quick_branches.md R155). -/
def execBnz (z : Size) (dst : Operand) (q : Quick) (s : State) : Host.Outcome State Fault Refusal :=
  finish (branchOp (condNotZero (opWidth dst (sizeBits z))) (sizeBits z) (opWidth dst (sizeBits z)) dst q s)

end Sys2Proof.Machine
end

