-- ==== Sys2Proof/Machine/Exchanges.lean ====
section
/-! DEFINITION. The exchanges (44_cfr.md R183 to R187). -/

namespace Sys2Proof.Machine

/-- PCX: exchange with PC, the call and return mechanism (44_cfr.md R184). -/
def execPcx (z : Size) (dst : Operand) (s : State) : Host.Outcome State Fault Refusal :=
  finish (exchangeOp .pc (sizeBits z) dst s)

/-- IPX: exchange with IP (44_cfr.md R185). -/
def execIpx (z : Size) (dst : Operand) (s : State) : Host.Outcome State Fault Refusal :=
  finish (exchangeOp .ip (sizeBits z) dst s)

/-- SPX: exchange with SP (44_cfr.md R186). -/
def execSpx (z : Size) (dst : Operand) (s : State) : Host.Outcome State Fault Refusal :=
  finish (exchangeOp .sp (sizeBits z) dst s)

/-- RPX: exchange with RP (44_cfr.md R187). -/
def execRpx (z : Size) (dst : Operand) (s : State) : Host.Outcome State Fault Refusal :=
  finish (exchangeOp .rp (sizeBits z) dst s)

end Sys2Proof.Machine
end

