-- ==== Sys2Proof/Machine/Float.lean ====
section
/-! DEFINITION. Size 11: the float operations, the float branches and FCN (43_float_ops.md). Every result and every test
is an uninterpreted function of Config (R160); an An operand is the low 32 or all 64 bits of the register with no
extension, so `opw` is the operand width for every form (R160, notes/assumptions/10.md). -/

namespace Sys2Proof.Machine

/-- FDV: `dst <- fnum.div(p, dst, src)` (43_float_ops.md R162). -/
def execFdv (p : Precision) (dst src : Operand) (s : State) : Host.Outcome State Fault Refusal :=
  finish (modifyOp (Config.fnumDiv p) (precisionBits p) (precisionBits p) dst src s)

/-- FAD: `dst <- fnum.add(p, dst, src)` (43_float_ops.md R163). -/
def execFad (p : Precision) (dst src : Operand) (s : State) : Host.Outcome State Fault Refusal :=
  finish (modifyOp (Config.fnumAdd p) (precisionBits p) (precisionBits p) dst src s)

/-- FML: `dst <- fnum.mul(p, dst, src)` (43_float_ops.md R164). -/
def execFml (p : Precision) (dst src : Operand) (s : State) : Host.Outcome State Fault Refusal :=
  finish (modifyOp (Config.fnumMul p) (precisionBits p) (precisionBits p) dst src s)

/-- FSB: `dst <- fnum.sub(p, dst, src)` (43_float_ops.md R165). -/
def execFsb (p : Precision) (dst src : Operand) (s : State) : Host.Outcome State Fault Refusal :=
  finish (modifyOp (Config.fnumSub p) (precisionBits p) (precisionBits p) dst src s)

/-- FBP (43_float_ops.md R167). -/
def execFbp (p : Precision) (dst : Operand) (q : Quick) (s : State) : Host.Outcome State Fault Refusal :=
  finish (branchOp (Config.fnumIsPlus p) (precisionBits p) (precisionBits p) dst q s)

/-- FBM (43_float_ops.md R168). -/
def execFbm (p : Precision) (dst : Operand) (q : Quick) (s : State) : Host.Outcome State Fault Refusal :=
  finish (branchOp (Config.fnumIsMinus p) (precisionBits p) (precisionBits p) dst q s)

/-- FBD (43_float_ops.md R169). -/
def execFbd (p : Precision) (dst : Operand) (q : Quick) (s : State) : Host.Outcome State Fault Refusal :=
  finish (branchOp (Config.fnumIsDenormalOrZero p) (precisionBits p) (precisionBits p) dst q s)

/-- FBI (43_float_ops.md R170). -/
def execFbi (p : Precision) (dst : Operand) (q : Quick) (s : State) : Host.Outcome State Fault Refusal :=
  finish (branchOp (Config.fnumIsInfinity p) (precisionBits p) (precisionBits p) dst q s)

/-- FCN, admitted as 43_float_ops.md R171 allows: `WriteDst(dmode, dreg, s, fnum.const(p, op, sreg))`
(notes/assumptions/9.md). -/
def execFcn (op : BitVec 2) (p : Precision) (dst : Operand) (src : Special) (s : State) :
    Host.Outcome State Fault Refusal :=
  finish (setOp (Config.fnumConst p op src) (precisionBits p) (precisionBits p) dst s)

end Sys2Proof.Machine
end

