-- ==== Sys2Proof/Machine/Functions.lean ====
section
/-! DEFINITION. CFR proper, the halves block and the fulls block (44_cfr.md R180, R190 to R208). Each function maps an
`n`-bit value to an `n`-bit value. -/

namespace Sys2Proof.Machine

/-- `r = (lo, hi)` (44_cfr.md R191). -/
def exchangeHalves (n : Nat) (v : Quad) : Quad := joinHalves n (lowerHalf n v) (upperHalf n v)

/-- `r = sext_s(lo)` (44_cfr.md R192). -/
def signExtendLow (n : Nat) (v : Quad) : Quad := low n (signExtendFrom (n / 2) v)

/-- `r = ((hi + 1) mod 2^h, lo)` (44_cfr.md R193). -/
def increaseUpper (n : Nat) (v : Quad) : Quad := joinHalves n (upperHalf n v + 1) (lowerHalf n v)

/-- `r = ((hi - 1) mod 2^h, lo)` (44_cfr.md R194). -/
def decreaseUpper (n : Nat) (v : Quad) : Quad := joinHalves n (upperHalf n v - 1) (lowerHalf n v)

/-- The absolute value; the most negative value is its own (44_cfr.md R201). -/
def absolute (n : Nat) (v : Quad) : Quad := if signBit n v then low n (0 - v) else v

/-- All ones for a negative value, else 0 (44_cfr.md R202). -/
def signOf (n : Nat) (v : Quad) : Quad := if signBit n v then low n (-1) else 0

/-- `r = (v[s-1], v[s-1:1])` for the count `SHIFT_AMT` = 1 (44_cfr.md R207). -/
def arithmeticShiftRight (n : Nat) (v : Quad) : Quad := low n ((signExtendFrom n v).sshiftRight Config.shiftAmt)

/-- `r = (0, v[s-1:1])` for the count `SHIFT_AMT` = 1 (44_cfr.md R208). -/
def logicShiftRight (n : Nat) (v : Quad) : Quad := low n v >>> Config.shiftAmt

/-- EXH (44_cfr.md R191). -/
def execExh (z : Size) (dst : Operand) (s : State) : Host.Outcome State Fault Refusal :=
  finish (unaryOp exchangeHalves (sizeBits z) dst s)

/-- SXL (44_cfr.md R192). -/
def execSxl (z : Size) (dst : Operand) (s : State) : Host.Outcome State Fault Refusal :=
  finish (unaryOp signExtendLow (sizeBits z) dst s)

/-- INU (44_cfr.md R193). -/
def execInu (z : Size) (dst : Operand) (s : State) : Host.Outcome State Fault Refusal :=
  finish (unaryOp increaseUpper (sizeBits z) dst s)

/-- DCU (44_cfr.md R194). -/
def execDcu (z : Size) (dst : Operand) (s : State) : Host.Outcome State Fault Refusal :=
  finish (unaryOp decreaseUpper (sizeBits z) dst s)

/-- SLT: `REFUSE(slt_unspecified)` (44_cfr.md R195). -/
def execSlt (_z : Size) (_dst : Operand) (_s : State) : Host.Outcome State Fault Refusal :=
  finish (refuse .sltUnspecified)

/-- SRT: `REFUSE(srt_unspecified)` (44_cfr.md R196). -/
def execSrt (_z : Size) (_dst : Operand) (_s : State) : Host.Outcome State Fault Refusal :=
  finish (refuse .srtUnspecified)

/-- ADU: `REFUSE(adu_unspecified)` (44_cfr.md R197). -/
def execAdu (_z : Size) (_dst : Operand) (_s : State) : Host.Outcome State Fault Refusal :=
  finish (refuse .aduUnspecified)

/-- SBU: `REFUSE(sbu_unspecified)` (44_cfr.md R198). -/
def execSbu (_z : Size) (_dst : Operand) (_s : State) : Host.Outcome State Fault Refusal :=
  finish (refuse .sbuUnspecified)

/-- WTO: `REFUSE(wto_unspecified)` (44_cfr.md R205). -/
def execWto (_dst : Operand) (_s : State) : Host.Outcome State Fault Refusal :=
  finish (refuse .wtoUnspecified)

/-- The WTO group at .W and .L: `REFUSE(unassigned)` (44_cfr.md R205, 30_encoding.md R103). -/
def execWtoGroup (_z : Size) (_dst : Operand) (_s : State) : Host.Outcome State Fault Refusal :=
  finish (refuse .unassigned)

/-- ABS (44_cfr.md R201). -/
def execAbs (z : Size) (dst : Operand) (s : State) : Host.Outcome State Fault Refusal :=
  finish (unaryOp absolute (sizeBits z) dst s)

/-- SGN (44_cfr.md R202). -/
def execSgn (z : Size) (dst : Operand) (s : State) : Host.Outcome State Fault Refusal :=
  finish (unaryOp signOf (sizeBits z) dst s)

/-- NOT: `REFUSE(not_unspecified)` (44_cfr.md R203). -/
def execNot (_z : Size) (_dst : Operand) (_s : State) : Host.Outcome State Fault Refusal :=
  finish (refuse .notUnspecified)

/-- CPL: `REFUSE(cpl_unspecified)` (44_cfr.md R204). -/
def execCpl (_z : Size) (_dst : Operand) (_s : State) : Host.Outcome State Fault Refusal :=
  finish (refuse .cplUnspecified)

/-- CLR: `dst <- 0`, the destination is not read (44_cfr.md R206). -/
def execClr (z : Size) (dst : Operand) (s : State) : Host.Outcome State Fault Refusal :=
  finish (do checkUnaryWidth (sizeBits z) dst; setOp 0 (sizeBits z) (sizeBits z) dst s)

/-- ASR (44_cfr.md R207). -/
def execAsr (z : Size) (dst : Operand) (s : State) : Host.Outcome State Fault Refusal :=
  finish (unaryOp arithmeticShiftRight (sizeBits z) dst s)

/-- LSR (44_cfr.md R208). -/
def execLsr (z : Size) (dst : Operand) (s : State) : Host.Outcome State Fault Refusal :=
  finish (unaryOp logicShiftRight (sizeBits z) dst s)

/-- CFR proper: `REFUSE(cfr_unspecified)` (44_cfr.md R180). -/
def execCfr (_z : Size) (_dst _src : Operand) (_s : State) : Host.Outcome State Fault Refusal :=
  finish (refuse .cfrUnspecified)

end Sys2Proof.Machine
end

