-- ==== Sys2Proof/Machine/Integer.lean ====
section
/-! DEFINITION. The two-operand integer operations (40_integer_ops.md R120 to R129). With destination PC direct, MOV, ADD
and SUB are jumps (R128): `writeDst` writes PC. -/

namespace Sys2Proof.Machine

/-- MOV: `dst <- src` (40_integer_ops.md R121). -/
def execMov (z : Size) (dst src : Operand) (s : State) : Host.Outcome State Fault Refusal :=
  finish (moveOp (sizeBits z) (opWidth dst (sizeBits z)) dst src s)

/-- ADD: `dst <- dst + src` (40_integer_ops.md R122). -/
def execAdd (z : Size) (dst src : Operand) (s : State) : Host.Outcome State Fault Refusal :=
  finish (modifyOp (fun a b => a + b) (sizeBits z) (opWidth dst (sizeBits z)) dst src s)

/-- MLL: the low `opw` bits of the product (40_integer_ops.md R123). -/
def execMll (z : Size) (dst src : Operand) (s : State) : Host.Outcome State Fault Refusal :=
  finish (modifyOp (fun a b => a * b) (sizeBits z) (opWidth dst (sizeBits z)) dst src s)

/-- SUB: `dst <- dst - src` (40_integer_ops.md R124). -/
def execSub (z : Size) (dst src : Operand) (s : State) : Host.Outcome State Fault Refusal :=
  finish (modifyOp (fun a b => a - b) (sizeBits z) (opWidth dst (sizeBits z)) dst src s)

/-- AND (40_integer_ops.md R125). -/
def execAnd (z : Size) (dst src : Operand) (s : State) : Host.Outcome State Fault Refusal :=
  finish (modifyOp (fun a b => a &&& b) (sizeBits z) (opWidth dst (sizeBits z)) dst src s)

/-- ORR (40_integer_ops.md R126). -/
def execOrr (z : Size) (dst src : Operand) (s : State) : Host.Outcome State Fault Refusal :=
  finish (modifyOp (fun a b => a ||| b) (sizeBits z) (opWidth dst (sizeBits z)) dst src s)

/-- XOR (40_integer_ops.md R127). -/
def execXor (z : Size) (dst src : Operand) (s : State) : Host.Outcome State Fault Refusal :=
  finish (modifyOp (fun a b => a ^^^ b) (sizeBits z) (opWidth dst (sizeBits z)) dst src s)

end Sys2Proof.Machine
end

