-- ==== Sys2Proof/Machine/NopSet.lean ====
section
/-! DEFINITION. The NOP set (30_encoding.md R102): MLL, AND, ORR, XOR, MLQ, the quick branches, halves and fulls on PC
direct are one-word NOPs that read no operand; the members whose other operand is a special memory form, and the branches
with quick 0 or -1, are `REFUSE(nop_with_side_effect)`. -/

namespace Sys2Proof.Machine

/-- MLL with destination PC direct and a special memory source: refused (30_encoding.md R102). -/
def execMllNopDstRefused (_z : Size) (_src : Form) (_s : State) : Host.Outcome State Fault Refusal :=
  finish (refuse .nopWithSideEffect)

/-- MLL with source PC direct and a special memory destination: refused (30_encoding.md R102). -/
def execMllNopSrcRefused (_z : Size) (_dst : Form) (_s : State) : Host.Outcome State Fault Refusal :=
  finish (refuse .nopWithSideEffect)

/-- MLL with destination PC direct: NOP (30_encoding.md R102). -/
def execMllNopDst (_z : Size) (_src : Operand) (s : State) : Host.Outcome State Fault Refusal :=
  finish (nopOp s)

/-- MLL with source PC direct: NOP (30_encoding.md R102). -/
def execMllNopSrc (_z : Size) (_dst : Operand) (s : State) : Host.Outcome State Fault Refusal :=
  finish (nopOp s)

/-- AND with destination PC direct and a special memory source: refused (30_encoding.md R102). -/
def execAndNopDstRefused (_z : Size) (_src : Form) (_s : State) : Host.Outcome State Fault Refusal :=
  finish (refuse .nopWithSideEffect)

/-- AND with source PC direct and a special memory destination: refused (30_encoding.md R102). -/
def execAndNopSrcRefused (_z : Size) (_dst : Form) (_s : State) : Host.Outcome State Fault Refusal :=
  finish (refuse .nopWithSideEffect)

/-- AND with destination PC direct: NOP (30_encoding.md R102). -/
def execAndNopDst (_z : Size) (_src : Operand) (s : State) : Host.Outcome State Fault Refusal :=
  finish (nopOp s)

/-- AND with source PC direct: NOP (30_encoding.md R102). -/
def execAndNopSrc (_z : Size) (_dst : Operand) (s : State) : Host.Outcome State Fault Refusal :=
  finish (nopOp s)

/-- ORR with destination PC direct and a special memory source: refused (30_encoding.md R102). -/
def execOrrNopDstRefused (_z : Size) (_src : Form) (_s : State) : Host.Outcome State Fault Refusal :=
  finish (refuse .nopWithSideEffect)

/-- ORR with source PC direct and a special memory destination: refused (30_encoding.md R102). -/
def execOrrNopSrcRefused (_z : Size) (_dst : Form) (_s : State) : Host.Outcome State Fault Refusal :=
  finish (refuse .nopWithSideEffect)

/-- ORR with destination PC direct: NOP (30_encoding.md R102). -/
def execOrrNopDst (_z : Size) (_src : Operand) (s : State) : Host.Outcome State Fault Refusal :=
  finish (nopOp s)

/-- ORR with source PC direct: NOP (30_encoding.md R102). -/
def execOrrNopSrc (_z : Size) (_dst : Operand) (s : State) : Host.Outcome State Fault Refusal :=
  finish (nopOp s)

/-- XOR with destination PC direct and a special memory source: refused (30_encoding.md R102). -/
def execXorNopDstRefused (_z : Size) (_src : Form) (_s : State) : Host.Outcome State Fault Refusal :=
  finish (refuse .nopWithSideEffect)

/-- XOR with source PC direct and a special memory destination: refused (30_encoding.md R102). -/
def execXorNopSrcRefused (_z : Size) (_dst : Form) (_s : State) : Host.Outcome State Fault Refusal :=
  finish (refuse .nopWithSideEffect)

/-- XOR with destination PC direct: NOP (30_encoding.md R102). -/
def execXorNopDst (_z : Size) (_src : Operand) (s : State) : Host.Outcome State Fault Refusal :=
  finish (nopOp s)

/-- XOR with source PC direct: NOP (30_encoding.md R102). -/
def execXorNopSrc (_z : Size) (_dst : Operand) (s : State) : Host.Outcome State Fault Refusal :=
  finish (nopOp s)

/-- MLQ with destination PC direct: NOP (30_encoding.md R102). -/
def execMlqNop (_z : Size) (_q : Quick) (s : State) : Host.Outcome State Fault Refusal :=
  finish (nopOp s)

/-- BPL with destination PC direct and quick 0: refused (30_encoding.md R102). -/
def execBplNopZeroRefused (_z : Size) (_s : State) : Host.Outcome State Fault Refusal :=
  finish (refuse .nopWithSideEffect)

/-- BPL with destination PC direct and quick -1: refused (30_encoding.md R102). -/
def execBplNopMinusRefused (_z : Size) (_s : State) : Host.Outcome State Fault Refusal :=
  finish (refuse .nopWithSideEffect)

/-- BPL with destination PC direct: NOP (30_encoding.md R102). -/
def execBplNop (_z : Size) (_q : Quick) (s : State) : Host.Outcome State Fault Refusal :=
  finish (nopOp s)

/-- BMI with destination PC direct and quick 0: refused (30_encoding.md R102). -/
def execBmiNopZeroRefused (_z : Size) (_s : State) : Host.Outcome State Fault Refusal :=
  finish (refuse .nopWithSideEffect)

/-- BMI with destination PC direct and quick -1: refused (30_encoding.md R102). -/
def execBmiNopMinusRefused (_z : Size) (_s : State) : Host.Outcome State Fault Refusal :=
  finish (refuse .nopWithSideEffect)

/-- BMI with destination PC direct: NOP (30_encoding.md R102). -/
def execBmiNop (_z : Size) (_q : Quick) (s : State) : Host.Outcome State Fault Refusal :=
  finish (nopOp s)

/-- BZE with destination PC direct and quick 0: refused (30_encoding.md R102). -/
def execBzeNopZeroRefused (_z : Size) (_s : State) : Host.Outcome State Fault Refusal :=
  finish (refuse .nopWithSideEffect)

/-- BZE with destination PC direct and quick -1: refused (30_encoding.md R102). -/
def execBzeNopMinusRefused (_z : Size) (_s : State) : Host.Outcome State Fault Refusal :=
  finish (refuse .nopWithSideEffect)

/-- BZE with destination PC direct: NOP (30_encoding.md R102). -/
def execBzeNop (_z : Size) (_q : Quick) (s : State) : Host.Outcome State Fault Refusal :=
  finish (nopOp s)

/-- BNZ with destination PC direct and quick 0: refused (30_encoding.md R102). -/
def execBnzNopZeroRefused (_z : Size) (_s : State) : Host.Outcome State Fault Refusal :=
  finish (refuse .nopWithSideEffect)

/-- BNZ with destination PC direct and quick -1: refused (30_encoding.md R102). -/
def execBnzNopMinusRefused (_z : Size) (_s : State) : Host.Outcome State Fault Refusal :=
  finish (refuse .nopWithSideEffect)

/-- BNZ with destination PC direct: NOP (30_encoding.md R102). -/
def execBnzNop (_z : Size) (_q : Quick) (s : State) : Host.Outcome State Fault Refusal :=
  finish (nopOp s)

/-- A halves function with destination PC direct: NOP (30_encoding.md R102). -/
def execHalvesNop (_z : Size) (_fn : Code3) (s : State) : Host.Outcome State Fault Refusal :=
  finish (nopOp s)

/-- A fulls function with destination PC direct: NOP (30_encoding.md R102). -/
def execFullsNop (_z : Size) (_fn : Code3) (s : State) : Host.Outcome State Fault Refusal :=
  finish (nopOp s)

end Sys2Proof.Machine
end

