-- ==== Sys2Proof/Machine/QuickOps.lean ====
section
/-! DEFINITION. The quick operations (41_quick_ops.md R140 to R144). -/

namespace Sys2Proof.Machine

/-- MVQ: `dst <- q`, the destination is not read (41_quick_ops.md R141). -/
def execMvq (z : Size) (dst : Operand) (q : Quick) (s : State) : Host.Outcome State Fault Refusal :=
  finish (setOp (quickConstant q) (sizeBits z) (opWidth dst (sizeBits z)) dst s)

/-- ADQ: `dst <- dst + q` (41_quick_ops.md R142). -/
def execAdq (z : Size) (dst : Operand) (q : Quick) (s : State) : Host.Outcome State Fault Refusal :=
  finish (quickOp (fun a b => a + b) (sizeBits z) (opWidth dst (sizeBits z)) dst q s)

/-- MLQ: the low `opw` bits of `dst * q` (41_quick_ops.md R143). -/
def execMlq (z : Size) (dst : Operand) (q : Quick) (s : State) : Host.Outcome State Fault Refusal :=
  finish (quickOp (fun a b => a * b) (sizeBits z) (opWidth dst (sizeBits z)) dst q s)

/-- SBQ: `dst <- dst - q` (41_quick_ops.md R144). -/
def execSbq (z : Size) (dst : Operand) (q : Quick) (s : State) : Host.Outcome State Fault Refusal :=
  finish (quickOp (fun a b => a - b) (sizeBits z) (opWidth dst (sizeBits z)) dst q s)

end Sys2Proof.Machine
end

