-- ==== Sys2Proof/Machine/System.lean ====
section
/-! DEFINITION. The system operations (45_system_ops.md R232 to R280): traps, @ forms, COM, reserved and extension
spaces, supervisor block, hypervisor block. -/

namespace Sys2Proof.Machine

/-! ## Traps -/

/-- BRK: `Trap(BRK, m)` in every mode (45_system_ops.md R233). -/
def execBrk (m : Code3) (_s : State) : Host.Outcome State Fault Refusal := finish (takeTrap .brk m)

/-- TRP: `Trap(TRP, m)` in every mode (45_system_ops.md R234). -/
def execTrp (m : Code3) (_s : State) : Host.Outcome State Fault Refusal := finish (takeTrap .trp m)

/-- HPR (P): `Trap(HPR, m)` (45_system_ops.md R235). -/
def execHpr (m : Code3) (s : State) : Host.Outcome State Fault Refusal :=
  finish (privileged .supervisor s (takeTrap .hpr m))

/-- CIV (H): `REFUSE(civ_unspecified)` in every mode (45_system_ops.md R236). -/
def execCiv (_m : Code3) (_s : State) : Host.Outcome State Fault Refusal := finish (refuse .civUnspecified)

/-! ## Reserved and extension spaces -/

/-- "Reserved" (45_system_ops.md R260). -/
def execReserved (_op : Code3) (_s : State) : Host.Outcome State Fault Refusal := finish (refuse .reserved)

/-- "system design" (45_system_ops.md R260). -/
def execSystemDesign (_op : Code3) (_s : State) : Host.Outcome State Fault Refusal := finish (refuse .reserved)

/-- "Reserved extension opcodes" (45_system_ops.md R261). -/
def execReservedExtension (_op : Code3) (_dst _src : Special) (_s : State) : Host.Outcome State Fault Refusal :=
  finish (refuse .reserved)

/-- "Reserved vector prefix opcodes" (45_system_ops.md R262). -/
def execReservedVectorPrefix (_op : Code3) (_dst _src : Special) (_s : State) : Host.Outcome State Fault Refusal :=
  finish (refuse .reserved)

/-- User opcode extension: this machine assigns none, so NOP (45_system_ops.md R263). -/
def execUserExtension (_op : Code3) (_dst : Special) (s : State) : Host.Outcome State Fault Refusal :=
  finish (nopOp s)

/-! ## COM and the @ forms -/

/-- COM: `REFUSE(com)` (45_system_ops.md R250). -/
def execCom (_n : BitVec 5) (_s : State) : Host.Outcome State Fault Refusal := finish (refuse .com)

/-- @COM: `REFUSE(com)` (45_system_ops.md R245). -/
def execAtCom (_n : BitVec 5) (_src : Operand) (_s : State) : Host.Outcome State Fault Refusal := finish (refuse .com)

/-- @BRK: `REFUSE(at_form_unspecified)` (45_system_ops.md R241). -/
def execAtBrk (_op : Code3) (_src : Operand) (_s : State) : Host.Outcome State Fault Refusal :=
  finish (refuse .atFormUnspecified)

/-- @TRP (P): `REFUSE(at_form_unspecified)` (45_system_ops.md R242). -/
def execAtTrp (_op : Code3) (_src : Operand) (s : State) : Host.Outcome State Fault Refusal :=
  finish (privileged .supervisor s (refuse .atFormUnspecified))

/-- @HVR (H): `REFUSE(at_form_unspecified)` (45_system_ops.md R243). -/
def execAtHvr (_op : Code3) (_src : Operand) (s : State) : Host.Outcome State Fault Refusal :=
  finish (privileged .hypervisor s (refuse .atFormUnspecified))

/-- @CIV (H): `REFUSE(at_form_unspecified)` (45_system_ops.md R244). -/
def execAtCiv (_op : Code3) (_src : Operand) (s : State) : Host.Outcome State Fault Refusal :=
  finish (privileged .hypervisor s (refuse .atFormUnspecified))

/-! ## The supervisor block (P) -/

/-- SNP: NOP (45_system_ops.md R265). -/
def execSnp (s : State) : Host.Outcome State Fault Refusal := finish (privileged .supervisor s (nopOp s))

/-- SUP: the user page-table pointer receives the d64 that follows (45_system_ops.md R266). -/
def execSup (s : State) : Host.Outcome State Fault Refusal :=
  finish (privileged .supervisor s do
    let (v, s1) ← streamRead s 4
    .ok (s1.setUserPt v))

/-- EIN: interrupts enabled (45_system_ops.md R267). -/
def execEin (s : State) : Host.Outcome State Fault Refusal :=
  finish (privileged .supervisor s (.ok (s.setInterruptEnable true)))

/-- DIN: interrupts disabled (45_system_ops.md R268). -/
def execDin (s : State) : Host.Outcome State Fault Refusal :=
  finish (privileged .supervisor s (.ok (s.setInterruptEnable false)))

/-- WTI: `REFUSE(wti)` (45_system_ops.md R269). -/
def execWti (s : State) : Host.Outcome State Fault Refusal := finish (privileged .supervisor s (refuse .wti))

/-- CLS: `REFUSE(trap_return_unspecified)` (45_system_ops.md R270). -/
def execCls (s : State) : Host.Outcome State Fault Refusal := finish (privileged .supervisor s returnFromTrap)

/-- RSS: `REFUSE(reset_unspecified)` (45_system_ops.md R271). -/
def execRss (s : State) : Host.Outcome State Fault Refusal :=
  finish (privileged .supervisor s (refuse .resetUnspecified))

/-- SIL: `Illegal(SIL)` (45_system_ops.md R272). -/
def execSil (s : State) : Host.Outcome State Fault Refusal := finish (privileged .supervisor s (takeIllegal .sil))

/-! ## The hypervisor block (H) -/

/-- HNP: NOP (45_system_ops.md R273). -/
def execHnp (s : State) : Host.Outcome State Fault Refusal := finish (privileged .hypervisor s (nopOp s))

/-- SSP: the supervisor page-table pointer receives the d64 that follows (45_system_ops.md R274). -/
def execSsp (s : State) : Host.Outcome State Fault Refusal :=
  finish (privileged .hypervisor s do
    let (v, s1) ← streamRead s 4
    .ok (s1.setSuperPt v))

/-- EVM: `REFUSE(translation_unspecified)` (45_system_ops.md R275). -/
def execEvm (s : State) : Host.Outcome State Fault Refusal :=
  finish (privileged .hypervisor s (refuse .translationUnspecified))

/-- DVM: translation disabled (45_system_ops.md R276). -/
def execDvm (s : State) : Host.Outcome State Fault Refusal :=
  finish (privileged .hypervisor s (.ok (s.setVmEnable false)))

/-- CLI: `REFUSE(interrupts_unspecified)` (45_system_ops.md R277). -/
def execCli (s : State) : Host.Outcome State Fault Refusal :=
  finish (privileged .hypervisor s (refuse .interruptsUnspecified))

/-- CLH: `REFUSE(trap_return_unspecified)` (45_system_ops.md R278). -/
def execClh (s : State) : Host.Outcome State Fault Refusal := finish (privileged .hypervisor s returnFromTrap)

/-- RSH: `REFUSE(reset_unspecified)` (45_system_ops.md R279). -/
def execRsh (s : State) : Host.Outcome State Fault Refusal :=
  finish (privileged .hypervisor s (refuse .resetUnspecified))

/-- HIL: `Illegal(HIL)` (45_system_ops.md R280). -/
def execHil (s : State) : Host.Outcome State Fault Refusal := finish (privileged .hypervisor s (takeIllegal .hil))

end Sys2Proof.Machine
end

