-- ==== Sys2Proof/Machine/Dispatch.lean ====
section
/-! DEFINITION. The meaning of each instruction, one arm per constructor, in the order of spec/opcode_table.json. -/

namespace Sys2Proof.Machine

/-- Execute an instruction in a state whose PC is already past the instruction word (10_state.md R25). -/
def exec (i : Instr) (s : State) : Host.Outcome State Fault Refusal :=
  match i with
  | .brk m => Sys2Proof.Machine.execBrk m s
  | .trp m => Sys2Proof.Machine.execTrp m s
  | .hpr m => Sys2Proof.Machine.execHpr m s
  | .civ m => Sys2Proof.Machine.execCiv m s
  | .reserved op => Sys2Proof.Machine.execReserved op s
  | .systemDesign op => Sys2Proof.Machine.execSystemDesign op s
  | .snp => Sys2Proof.Machine.execSnp s
  | .sup => Sys2Proof.Machine.execSup s
  | .ein => Sys2Proof.Machine.execEin s
  | .din => Sys2Proof.Machine.execDin s
  | .wti => Sys2Proof.Machine.execWti s
  | .cls => Sys2Proof.Machine.execCls s
  | .rss => Sys2Proof.Machine.execRss s
  | .sil => Sys2Proof.Machine.execSil s
  | .hnp => Sys2Proof.Machine.execHnp s
  | .ssp => Sys2Proof.Machine.execSsp s
  | .evm => Sys2Proof.Machine.execEvm s
  | .dvm => Sys2Proof.Machine.execDvm s
  | .cli => Sys2Proof.Machine.execCli s
  | .clh => Sys2Proof.Machine.execClh s
  | .rsh => Sys2Proof.Machine.execRsh s
  | .hil => Sys2Proof.Machine.execHil s
  | .reservedExtension op dst src => Sys2Proof.Machine.execReservedExtension op dst src s
  | .com n => Sys2Proof.Machine.execCom n s
  | .userExtension op dst => Sys2Proof.Machine.execUserExtension op dst s
  | .reservedVectorPrefix op dst src => Sys2Proof.Machine.execReservedVectorPrefix op dst src s
  | .atBrk op src => Sys2Proof.Machine.execAtBrk op src s
  | .atTrp op src => Sys2Proof.Machine.execAtTrp op src s
  | .atHvr op src => Sys2Proof.Machine.execAtHvr op src s
  | .atCiv op src => Sys2Proof.Machine.execAtCiv op src s
  | .atCom n src => Sys2Proof.Machine.execAtCom n src s
  | .fcn op p dst src => Sys2Proof.Machine.execFcn op p dst src s
  | .fdv p dst src => Sys2Proof.Machine.execFdv p dst src s
  | .fad p dst src => Sys2Proof.Machine.execFad p dst src s
  | .fml p dst src => Sys2Proof.Machine.execFml p dst src s
  | .fsb p dst src => Sys2Proof.Machine.execFsb p dst src s
  | .fbp p dst q => Sys2Proof.Machine.execFbp p dst q s
  | .fbm p dst q => Sys2Proof.Machine.execFbm p dst q s
  | .fbd p dst q => Sys2Proof.Machine.execFbd p dst q s
  | .fbi p dst q => Sys2Proof.Machine.execFbi p dst q s
  | .mllNopDstRefused z src => Sys2Proof.Machine.execMllNopDstRefused z src s
  | .mllNopSrcRefused z dst => Sys2Proof.Machine.execMllNopSrcRefused z dst s
  | .mllNopDst z src => Sys2Proof.Machine.execMllNopDst z src s
  | .mllNopSrc z dst => Sys2Proof.Machine.execMllNopSrc z dst s
  | .andNopDstRefused z src => Sys2Proof.Machine.execAndNopDstRefused z src s
  | .andNopSrcRefused z dst => Sys2Proof.Machine.execAndNopSrcRefused z dst s
  | .andNopDst z src => Sys2Proof.Machine.execAndNopDst z src s
  | .andNopSrc z dst => Sys2Proof.Machine.execAndNopSrc z dst s
  | .orrNopDstRefused z src => Sys2Proof.Machine.execOrrNopDstRefused z src s
  | .orrNopSrcRefused z dst => Sys2Proof.Machine.execOrrNopSrcRefused z dst s
  | .orrNopDst z src => Sys2Proof.Machine.execOrrNopDst z src s
  | .orrNopSrc z dst => Sys2Proof.Machine.execOrrNopSrc z dst s
  | .xorNopDstRefused z src => Sys2Proof.Machine.execXorNopDstRefused z src s
  | .xorNopSrcRefused z dst => Sys2Proof.Machine.execXorNopSrcRefused z dst s
  | .xorNopDst z src => Sys2Proof.Machine.execXorNopDst z src s
  | .xorNopSrc z dst => Sys2Proof.Machine.execXorNopSrc z dst s
  | .mlqNop z q => Sys2Proof.Machine.execMlqNop z q s
  | .bplNopZeroRefused z => Sys2Proof.Machine.execBplNopZeroRefused z s
  | .bplNopMinusRefused z => Sys2Proof.Machine.execBplNopMinusRefused z s
  | .bplNop z q => Sys2Proof.Machine.execBplNop z q s
  | .bmiNopZeroRefused z => Sys2Proof.Machine.execBmiNopZeroRefused z s
  | .bmiNopMinusRefused z => Sys2Proof.Machine.execBmiNopMinusRefused z s
  | .bmiNop z q => Sys2Proof.Machine.execBmiNop z q s
  | .bzeNopZeroRefused z => Sys2Proof.Machine.execBzeNopZeroRefused z s
  | .bzeNopMinusRefused z => Sys2Proof.Machine.execBzeNopMinusRefused z s
  | .bzeNop z q => Sys2Proof.Machine.execBzeNop z q s
  | .bnzNopZeroRefused z => Sys2Proof.Machine.execBnzNopZeroRefused z s
  | .bnzNopMinusRefused z => Sys2Proof.Machine.execBnzNopMinusRefused z s
  | .bnzNop z q => Sys2Proof.Machine.execBnzNop z q s
  | .halvesNop z fn => Sys2Proof.Machine.execHalvesNop z fn s
  | .fullsNop z fn => Sys2Proof.Machine.execFullsNop z fn s
  | .pcx z dst => Sys2Proof.Machine.execPcx z dst s
  | .ipx z dst => Sys2Proof.Machine.execIpx z dst s
  | .spx z dst => Sys2Proof.Machine.execSpx z dst s
  | .rpx z dst => Sys2Proof.Machine.execRpx z dst s
  | .exh z dst => Sys2Proof.Machine.execExh z dst s
  | .sxl z dst => Sys2Proof.Machine.execSxl z dst s
  | .inu z dst => Sys2Proof.Machine.execInu z dst s
  | .dcu z dst => Sys2Proof.Machine.execDcu z dst s
  | .slt z dst => Sys2Proof.Machine.execSlt z dst s
  | .srt z dst => Sys2Proof.Machine.execSrt z dst s
  | .adu z dst => Sys2Proof.Machine.execAdu z dst s
  | .sbu z dst => Sys2Proof.Machine.execSbu z dst s
  | .wto dst => Sys2Proof.Machine.execWto dst s
  | .wtoGroup z dst => Sys2Proof.Machine.execWtoGroup z dst s
  | .abs z dst => Sys2Proof.Machine.execAbs z dst s
  | .sgn z dst => Sys2Proof.Machine.execSgn z dst s
  | .not z dst => Sys2Proof.Machine.execNot z dst s
  | .cpl z dst => Sys2Proof.Machine.execCpl z dst s
  | .clr z dst => Sys2Proof.Machine.execClr z dst s
  | .asr z dst => Sys2Proof.Machine.execAsr z dst s
  | .lsr z dst => Sys2Proof.Machine.execLsr z dst s
  | .cfr z dst src => Sys2Proof.Machine.execCfr z dst src s
  | .mov z dst src => Sys2Proof.Machine.execMov z dst src s
  | .add z dst src => Sys2Proof.Machine.execAdd z dst src s
  | .mll z dst src => Sys2Proof.Machine.execMll z dst src s
  | .sub z dst src => Sys2Proof.Machine.execSub z dst src s
  | .and z dst src => Sys2Proof.Machine.execAnd z dst src s
  | .orr z dst src => Sys2Proof.Machine.execOrr z dst src s
  | .xor z dst src => Sys2Proof.Machine.execXor z dst src s
  | .mvq z dst q => Sys2Proof.Machine.execMvq z dst q s
  | .adq z dst q => Sys2Proof.Machine.execAdq z dst q s
  | .mlq z dst q => Sys2Proof.Machine.execMlq z dst q s
  | .sbq z dst q => Sys2Proof.Machine.execSbq z dst q s
  | .bpl z dst q => Sys2Proof.Machine.execBpl z dst q s
  | .bmi z dst q => Sys2Proof.Machine.execBmi z dst q s
  | .bze z dst q => Sys2Proof.Machine.execBze z dst q s
  | .bnz z dst q => Sys2Proof.Machine.execBnz z dst q s

end Sys2Proof.Machine
end

