-- ==== Sys2Proof/Machine/Step.lean ====
section
/-! DEFINITION. One step: fetch, PC + 1, execute (10_state.md R25), and the placing of an instruction where the next step
fetches it. -/

namespace Sys2Proof.Machine

/-- One instruction cycle (10_state.md R25). -/
def step (s : State) : Host.Outcome State Fault Refusal :=
  match fetch s with
  | .ok (w, s1) => exec (decodeWord w) s1
  | .error (.fault f) => .fault f
  | .error (.refused r) => .refused r

/-- A word of the instruction stream put in place from outside the machine: its address is mapped and the word does not
count as stored to by the run. -/
def State.placeWord (s : State) (address : Quad) (w : Word) : State :=
  { s with
    memory := s.memory.putWord address w
    platform := if s.mapped address then s.platform else { base := address.toNat, words := 1 } :: s.platform
    stored := s.stored.filter (· != address.toNat) }

/-- The `k` words from the `first`-th on of the instruction `bits`, placed at PC + first, PC + first + 1, ... -/
def State.placeWords (s : State) (bits first k : Nat) : State :=
  match k with
  | 0 => s
  | k + 1 =>
    (s.placeWord (s.pc + BitVec.ofNat 64 first) (BitVec.ofNat 16 (bits / 2 ^ (16 * first)))).placeWords bits (first + 1) k

/-- `s` with the instruction whose bits are `w` placed at PC: its `nbits` bits, and zeros up to the five words of the
longest instruction. Translation is off, as every fetch needs (20_memory.md R57). -/
def State.withFetchWord (s : State) (nbits w : Nat) : State :=
  ({ s with vmEnable := false }).placeWords (w % 2 ^ nbits) 0 5

end Sys2Proof.Machine
end

