-- ==== Sys2Proof/Machine/Effects.lean ====
section
/-! DEFINITION. The effect of an operand access as total functions of the state, beside the condition under which the
access is carried out: the vocabulary in which statements about instructions are written. `step` uses none of it. -/

namespace Sys2Proof.Machine

/-! ## Memory -/

/-- `k` words from `address` on can be read: translation is off, every word is mapped and holds a value
(20_memory.md R56, R57). -/
abbrev State.readable (s : State) (address : Quad) (k : Nat) : Prop :=
  s.vmEnable = false ∧ ∀ j, j < k →
    s.mapped (address + BitVec.ofNat 64 j) = true ∧ (s.memory.wordAt (address + BitVec.ofNat 64 j)).isSome = true

/-- `k` words from `address` on can be written: translation is off and every word is mapped
(20_memory.md R56, R57). -/
abbrev State.writable (s : State) (address : Quad) (k : Nat) : Prop :=
  s.vmEnable = false ∧ ∀ j, j < k → s.mapped (address + BitVec.ofNat 64 j) = true

/-- `k` words from PC on can be taken from the instruction stream: readable, and none of them stored to by the run
(20_memory.md R61). -/
abbrev State.streamable (s : State) (k : Nat) : Prop :=
  s.readable s.pc k ∧ ∀ j, j < k → s.isStored (s.pc + BitVec.ofNat 64 j) = false

/-- The word at `address`, 0 where there is none. -/
def State.wordOrZero (s : State) (address : Quad) : Word := (s.memory.wordAt address).getD 0

/-- The value of `k` words from `address` on, the lowest address the most significant (20_memory.md R52). -/
def State.valueAt (s : State) (address : Quad) (k : Nat) : Quad :=
  match k with
  | 0 => 0
  | k + 1 => (s.valueAt address k <<< 16) ||| (s.wordOrZero (address + BitVec.ofNat 64 k)).setWidth 64

/-- The state after `k` words from `address` on are stored, the most significant at the lowest address
(20_memory.md R52). -/
def State.storeWords (s : State) (address : Quad) (k : Nat) (v : Quad) : State :=
  match k with
  | 0 => s
  | k + 1 => (s.storeWords address k (v >>> 16)).storeWord (address + BitVec.ofNat 64 k) (v.setWidth 16)

/-! ## The read half of a special memory form (30_encoding.md R91) -/

/-- The access of the read half is carried out. -/
def formReady (s : State) (f : Form) (n : Nat) : Prop :=
  match f with
  | .pcSp => s.streamable (stepOf n)
  | _ => s.readable (s.getSpecial (readPointer f)) (stepOf n)

/-- The value read at the pointer. -/
def formValue (s : State) (f : Form) (n : Nat) : Quad := s.valueAt (s.getSpecial (readPointer f)) (stepOf n)

/-- The pointer increased by `step(n)`. -/
def formState (s : State) (f : Form) (n : Nat) : State :=
  s.setSpecial (readPointer f) (s.getSpecial (readPointer f) + BitVec.ofNat 64 (stepOf n))

/-! ## Source operands (30_encoding.md R90, R91) -/

/-- The address that a read of `src` begins at; none for a source that is a register. -/
def sourceAddress (s : State) (src : Operand) : Option Quad :=
  match src with
  | .mem r => some (s.getA r)
  | .form f => some (s.getSpecial (readPointer f))
  | .an _ | .dn _ | .special _ => none

/-- The source can be read. -/
def srcReady (s : State) (src : Operand) (n : Nat) : Prop :=
  match src with
  | .mem r => s.readable (s.getA r) (stepOf n)
  | .form f => formReady s f n
  | .an _ | .dn _ | .special _ => True

/-- The `n`-bit source value. -/
def srcValue (s : State) (src : Operand) (n : Nat) : Quad :=
  match src with
  | .an r => low n (s.getA r)
  | .mem r => s.valueAt (s.getA r) (stepOf n)
  | .dn r => low n (s.getD r)
  | .special r => low n (s.getSpecial r)
  | .form f => formValue s f n

/-- The state after the source is read: its pointer has moved. -/
def srcState (s : State) (src : Operand) (n : Nat) : State :=
  match src with
  | .form f => formState s f n
  | .an _ | .mem _ | .dn _ | .special _ => s

/-! ## Destination operands (30_encoding.md R92 to R94) -/

/-- The destination can be read. -/
def dstReady (s : State) (dst : Operand) (n : Nat) : Prop :=
  match dst with
  | .mem r => s.readable (s.getA r) (stepOf n)
  | .form f => formReady s f n
  | .an _ | .dn _ | .special _ => True

/-- The `opw`-bit destination value. -/
def dstValue (s : State) (dst : Operand) (n opw : Nat) : Quad :=
  match dst with
  | .an r => low opw (s.getA r)
  | .mem r => s.valueAt (s.getA r) (stepOf n)
  | .dn r => low n (s.getD r)
  | .special r => low opw (s.getSpecial r)
  | .form f => formValue s f n

/-- The state after the destination is read: its pointer has moved. -/
def dstState (s : State) (dst : Operand) (n : Nat) : State :=
  match dst with
  | .form f => formState s f n
  | .an _ | .mem _ | .dn _ | .special _ => s

/-- The destination can be written: a memory destination is writable where `storeAddress` says, and the form has a
write meaning. -/
def writeReady (s : State) (dst : Operand) (n : Nat) : Prop :=
  match storeAddress s dst n with
  | some address => s.writable address (stepOf n)
  | none => dst.isForm = false

/-- The state after the destination is written. -/
def writeState (s : State) (dst : Operand) (n opw : Nat) (v : Quad) : State :=
  match dst with
  | .an r => s.setA r (insertLow opw (s.getA r) v)
  | .mem r => s.storeWords (s.getA r) (stepOf n) v
  | .dn r => s.setD r (insertLow n (s.getD r) v)
  | .special r => s.setSpecial r (insertLow opw (s.getSpecial r) v)
  | .form f =>
    match writePointer f with
    | some p => (s.setSpecial p (pushAddress s p n)).storeWords (pushAddress s p n) (stepOf n) v
    | none => s

/-! ## Instruction templates -/

/-- The operands of a two-operand instruction that reads its destination are admitted and accessible
(30_encoding.md R92, R95; 40_integer_ops.md R120). -/
def modifyReady (s : State) (dst src : Operand) (n : Nat) : Prop :=
  samePointer .modify dst src = false ∧ srcReady s src n ∧ dstReady (srcState s src n) dst n ∧
    writeReady (dstState (srcState s src n) dst n) dst n

/-- The state after `dst <- f(dst, src)` over `opw` bits (40_integer_ops.md R120). -/
def modifyState (f : Quad → Quad → Quad) (s : State) (dst src : Operand) (n opw : Nat) : State :=
  writeState (dstState (srcState s src n) dst n) dst n opw
    (low opw (f (dstValue (srcState s src n) dst n opw) (widen opw n (srcValue s src n))))

/-- The state in which a two-operand instruction that reads its destination writes it. -/
def modifyAt (s : State) (dst src : Operand) (n : Nat) : State := dstState (srcState s src n) dst n

/-- The operands of a two-operand instruction that does not read its destination are admitted and accessible. -/
def moveReady (s : State) (dst src : Operand) (n : Nat) : Prop :=
  samePointer .write dst src = false ∧ srcReady s src n ∧ writeReady (srcState s src n) dst n

/-- The one operand of an instruction that reads and writes it is accessible, and the form has a write meaning. -/
def updateReady (s : State) (dst : Operand) (n : Nat) : Prop :=
  dstReady s dst n ∧ writeReady (dstState s dst n) dst n

/-- The two's-complement reading of the low `n` bits (00_scope.md R7, `signed`). -/
def signedOf (n : Nat) (v : Quad) : Int :=
  if v.toNat % 2 ^ n < 2 ^ (n - 1) then (v.toNat % 2 ^ n : Nat) else (v.toNat % 2 ^ n : Nat) - 2 ^ n

/-- The `opw`-bit value of a number taken modulo 2^opw (40_integer_ops.md R129). -/
def wrapTo (opw : Nat) (x : Int) : Quad := BitVec.ofInt 64 (x % 2 ^ opw)

/-- The quick constant as a number, 1 to 32 (30_encoding.md R96). -/
def quickNumber (q : Quick) : Nat := if q.toNat = 0 then 32 else q.toNat

/-- The displacement as a number of words: d16, d16 - 65536 or the signed quick (42_quick_branches.md R151). -/
def displacementNumber (s : State) (q : Quick) : Int :=
  if q.toNat = 0 then (s.wordOrZero s.pc).toNat
  else if q.toNat = 31 then (s.wordOrZero s.pc).toNat - 65536
  else if q.toNat < 16 then q.toNat else q.toNat - 32

/-- A branch's d16 can be taken from the stream, if quick 0 or -1 announces one (42_quick_branches.md R151). -/
def displacementReady (s : State) (q : Quick) : Prop := longMarker q = true → s.streamable 1

/-- The displacement: the signed quick, or {w[0], d16} sign-extended from 17 bits (42_quick_branches.md R151). -/
def displacementValue (s : State) (q : Quick) : Quad :=
  if longMarker q then ((q.extractLsb' 0 1) ++ (s.wordOrZero s.pc) : BitVec 17).signExtend 64 else q.signExtend 64

/-- The state after the d16, if any. -/
def displacementState (s : State) (q : Quick) : State := if longMarker q then s.setPc (s.pc + 1) else s

/-- The tested operand and the d16 of a branch are accessible and the operand is no immediate
(42_quick_branches.md R150). -/
def branchReady (s : State) (dst : Operand) (n : Nat) (q : Quick) : Prop :=
  dst ≠ .form .pcSp ∧ dstReady s dst n ∧ displacementReady (dstState s dst n) q

/-- The state after a branch that tests `cond`: the pointers moved, PC at base + displacement or past the instruction
(42_quick_branches.md R150). -/
def branchState (cond : Quad → Bool) (s : State) (dst : Operand) (n opw : Nat) (q : Quick) : State :=
  if cond (dstValue s dst n opw) then
    (displacementState (dstState s dst n) q).setPc (s.pc + displacementValue (dstState s dst n) q)
  else displacementState (dstState s dst n) q

end Sys2Proof.Machine
end

