-- ==== Sys2Proof/Safety.lean ====
section
/-! DEFINITION. What counts as a safe run and the properties of states that statements speak of: the invariant that every
step keeps, what an instruction leaves unchanged, and the outcomes in which a run stops. -/

namespace Sys2Proof.Machine

/-- The step answers a next state. -/
def Completes (o : Host.Outcome State Fault Refusal) : Prop := ∃ t, o = .next t

/-- A run of `k` steps from `s` ends in no fault and no refusal. -/
def SafeFor (k : Nat) (s : State) : Prop := ∃ t, Sys2Proof.core.run k s = .next t

/-- The invariant: memory and the list of stored words are canonical, no WTO target and no COM pair is pending
(44_cfr.md R205 and 45_system_ops.md R250 refuse what would set them), and translation is off (20_memory.md R57). -/
structure State.Inv (s : State) : Prop where
  memory : s.memory.wf = true
  stored : rising s.stored = true
  noTarget : s.wtoTarget = none
  noPair : s.comPosition = none
  untranslated : s.vmEnable = false

/-- Privilege, interrupt and translation state is the same (10_state.md R29 to R33). -/
structure SameControl (s t : State) : Prop where
  mode : t.mode = s.mode
  interruptEnable : t.interruptEnable = s.interruptEnable
  interruptPending : t.interruptPending = s.interruptPending
  vmEnable : t.vmEnable = s.vmEnable
  userPt : t.userPt = s.userPt
  superPt : t.superPt = s.superPt

/-- Vectors, COM table, counters, hidden state and the platform are the same (10_state.md R34 to R37, R39, R40). -/
structure SameSystem (s t : State) : Prop where
  brkVector : t.brkVector = s.brkVector
  trpVector : t.trpVector = s.trpVector
  hvrVector : t.hvrVector = s.hvrVector
  civVector : t.civVector = s.civVector
  comTable : t.comTable = s.comTable
  profile : t.profile = s.profile
  special : t.special = s.special
  wtoTarget : t.wtoTarget = s.wtoTarget
  comPosition : t.comPosition = s.comPosition
  platform : t.platform = s.platform

/-- An and Dn are the same but for the one that is operand `dst`. -/
def SameGeneralBut (s t : State) (dst : Option Operand) : Prop :=
  (∀ r, dst ≠ some (.an r) → t.getA r = s.getA r) ∧ (∀ r, dst ≠ some (.dn r) → t.getD r = s.getD r)

/-- Byte address `b` lies in the `k` words from word address `address` on. -/
def inWords (address : Quad) (k b : Nat) : Prop :=
  ∃ j, j < k ∧ (b = 2 * (address + BitVec.ofNat 64 j).toNat ∨ b = 2 * (address + BitVec.ofNat 64 j).toNat + 1)

/-- Every byte outside the `k` words from the stored address on reads as before; all of memory, if nothing is stored. -/
def SameMemoryBut (s t : State) (address : Option Quad) (k : Nat) : Prop :=
  ∀ b, (∀ x, address = some x → ¬ inWords x k b) → t.memory.byteAt b = s.memory.byteAt b

/-- No word that was not stored to before counts as stored to now, but for the `k` words from the stored address on. -/
def SameStoredBut (s t : State) (address : Option Quad) (k : Nat) : Prop :=
  ∀ y, (∀ x, address = some x → ∀ j, j < k → y ≠ x + BitVec.ofNat 64 j) → t.isStored y = s.isStored y

/-- What an instruction from `s` to `t` that writes `dst` in state `w` (its operands already read) may change: `dst` if it
is a register, the pointers that `moved` names, PC, and the bytes of `dst` if it is memory; everything else is the
same. -/
structure FrameOf (s w t : State) (dst : Operand) (n : Nat) (moved : Special → Bool) : Prop where
  general : SameGeneralBut s t (some dst)
  pointers : ∀ x, x ≠ .pc → dst ≠ .special x → moved x = false → t.getSpecial x = s.getSpecial x
  memory : SameMemoryBut s t (storeAddress w dst n) (stepOf n)
  stored : SameStoredBut s t (storeAddress w dst n) (stepOf n)
  control : SameControl s t
  system : SameSystem s t

/-- Nothing but PC and the pointers that `moved` names changes. -/
structure OnlyPointers (s t : State) (moved : Special → Bool) : Prop where
  general : SameGeneralBut s t none
  pointers : ∀ x, x ≠ .pc → moved x = false → t.getSpecial x = s.getSpecial x
  memory : t.memory = s.memory
  stored : t.stored = s.stored
  control : SameControl s t
  system : SameSystem s t

/-- The pointers a two-operand instruction moves (30_encoding.md R95). -/
def movedBy (use : DstUse) (dst src : Operand) (x : Special) : Bool := srcPointer src == some x || dstUpdates use dst x

/-- The operand pairs (destination, source) that 30_encoding.md R95 refuses in an instruction that does not read its
destination: the destination's write moves SP or RP and the source moves it or is it. -/
def writeClashes : List (Operand × Operand) :=
  [(.form .pcSp, .form .spSp), (.form .pcSp, .special .sp), (.form .ipRp, .form .rpRp), (.form .ipRp, .special .rp)]

/-- The further pairs that 30_encoding.md R95 refuses in an instruction that reads its destination and writes it, for a
destination that has a write form. -/
def readClashes : List (Operand × Operand) :=
  [(.form .pcSp, .form .pcSp), (.form .pcSp, .special .pc), (.form .ipRp, .form .ipRp), (.form .ipRp, .special .ip),
   (.special .pc, .form .pcSp), (.special .ip, .form .ipRp), (.special .sp, .form .spSp),
   (.special .rp, .form .rpRp)]

/-- The words of the immediate that an operand read in the stream takes (30_encoding.md R104). -/
def immediateWords (o : Operand) (n : Nat) : Nat :=
  match o with
  | .form .pcSp => stepOf n
  | _ => 0

/-- The words of the d16 of a branch (42_quick_branches.md R151). -/
def d16Words (q : Quick) : Nat := if longMarker q then 1 else 0

/-- The words that follow the instruction word (30_encoding.md R104, 45_system_ops.md R240): the immediate of a source, then
that of a destination that the instruction reads, then a d16, d64 or d32; so an @ form with source "(PC+)" has both its source
immediate, of the Double or Float size, and its d64 or d32. A NOP encoding is one word (30_encoding.md R102). That the refused
NOP forms are one word too, and that WTO and the WTO group (44_cfr.md R205) read no destination, is the model's choice:
notes/assumptions/21.md. -/
def followingWords (i : Instr) : Nat :=
  match i with
  | .brk _ | .trp _ | .hpr _ | .civ _ | .reserved _ | .systemDesign _ => 0
  | .snp | .ein | .din | .wti | .cls | .rss | .sil => 0
  | .hnp | .evm | .dvm | .cli | .clh | .rsh | .hil => 0
  | .sup | .ssp => 4
  | .reservedExtension _ _ _ | .com _ | .userExtension _ _ | .reservedVectorPrefix _ _ _ => 0
  | .atBrk _ src | .atTrp _ src | .atHvr _ src | .atCiv _ src => immediateWords src (precisionBits .double) + 4
  | .atCom _ src => immediateWords src (precisionBits .float) + 2
  | .fcn _ _ _ _ => 0
  | .fdv p dst src | .fad p dst src | .fml p dst src | .fsb p dst src =>
    immediateWords src (precisionBits p) + immediateWords dst (precisionBits p)
  | .fbp p dst q | .fbm p dst q | .fbd p dst q | .fbi p dst q => immediateWords dst (precisionBits p) + d16Words q
  | .mllNopDstRefused _ _ | .mllNopSrcRefused _ _ | .mllNopDst _ _ | .mllNopSrc _ _ => 0
  | .andNopDstRefused _ _ | .andNopSrcRefused _ _ | .andNopDst _ _ | .andNopSrc _ _ => 0
  | .orrNopDstRefused _ _ | .orrNopSrcRefused _ _ | .orrNopDst _ _ | .orrNopSrc _ _ => 0
  | .xorNopDstRefused _ _ | .xorNopSrcRefused _ _ | .xorNopDst _ _ | .xorNopSrc _ _ => 0
  | .mlqNop _ _ => 0
  | .bplNopZeroRefused _ | .bplNopMinusRefused _ | .bmiNopZeroRefused _ | .bmiNopMinusRefused _ => 0
  | .bzeNopZeroRefused _ | .bzeNopMinusRefused _ | .bnzNopZeroRefused _ | .bnzNopMinusRefused _ => 0
  | .bplNop _ _ | .bmiNop _ _ | .bzeNop _ _ | .bnzNop _ _ | .halvesNop _ _ | .fullsNop _ _ => 0
  | .pcx z dst | .ipx z dst | .spx z dst | .rpx z dst => immediateWords dst (sizeBits z)
  | .exh z dst | .sxl z dst | .inu z dst | .dcu z dst => immediateWords dst (sizeBits z)
  | .abs z dst | .sgn z dst | .asr z dst | .lsr z dst => immediateWords dst (sizeBits z)
  | .clr _ _ => 0
  | .slt z dst | .srt z dst | .adu z dst | .sbu z dst | .not z dst | .cpl z dst => immediateWords dst (sizeBits z)
  | .wto _ | .wtoGroup _ _ => 0
  | .cfr z _ src => immediateWords src (sizeBits z)
  | .mov z _ src => immediateWords src (sizeBits z)
  | .add z dst src | .mll z dst src | .sub z dst src | .and z dst src | .orr z dst src | .xor z dst src =>
    immediateWords src (sizeBits z) + immediateWords dst (sizeBits z)
  | .mvq _ _ _ => 0
  | .adq z dst _ | .mlq z dst _ | .sbq z dst _ => immediateWords dst (sizeBits z)
  | .bpl z dst q | .bmi z dst q | .bze z dst q | .bnz z dst q => immediateWords dst (sizeBits z) + d16Words q

/-- The operand that an instruction writes, with its width. -/
def written (i : Instr) : Option (Operand × Nat) :=
  match i with
  | .brk _ | .trp _ | .hpr _ | .civ _ | .reserved _ | .systemDesign _ => none
  | .snp | .sup | .ein | .din | .wti | .cls | .rss | .sil => none
  | .hnp | .ssp | .evm | .dvm | .cli | .clh | .rsh | .hil => none
  | .reservedExtension _ _ _ | .com _ | .userExtension _ _ | .reservedVectorPrefix _ _ _ => none
  | .atBrk _ _ | .atTrp _ _ | .atHvr _ _ | .atCiv _ _ | .atCom _ _ => none
  | .fcn _ p dst _ => some (dst, precisionBits p)
  | .fdv p dst _ | .fad p dst _ | .fml p dst _ | .fsb p dst _ => some (dst, precisionBits p)
  | .fbp _ _ _ | .fbm _ _ _ | .fbd _ _ _ | .fbi _ _ _ => none
  | .mllNopDstRefused _ _ | .mllNopSrcRefused _ _ | .mllNopDst _ _ | .mllNopSrc _ _ => none
  | .andNopDstRefused _ _ | .andNopSrcRefused _ _ | .andNopDst _ _ | .andNopSrc _ _ => none
  | .orrNopDstRefused _ _ | .orrNopSrcRefused _ _ | .orrNopDst _ _ | .orrNopSrc _ _ => none
  | .xorNopDstRefused _ _ | .xorNopSrcRefused _ _ | .xorNopDst _ _ | .xorNopSrc _ _ => none
  | .mlqNop _ _ => none
  | .bplNopZeroRefused _ | .bplNopMinusRefused _ | .bmiNopZeroRefused _ | .bmiNopMinusRefused _ => none
  | .bzeNopZeroRefused _ | .bzeNopMinusRefused _ | .bnzNopZeroRefused _ | .bnzNopMinusRefused _ => none
  | .bplNop _ _ | .bmiNop _ _ | .bzeNop _ _ | .bnzNop _ _ | .halvesNop _ _ | .fullsNop _ _ => none
  | .pcx z dst | .ipx z dst | .spx z dst | .rpx z dst => some (dst, sizeBits z)
  | .exh z dst | .sxl z dst | .inu z dst | .dcu z dst => some (dst, sizeBits z)
  | .abs z dst | .sgn z dst | .clr z dst | .asr z dst | .lsr z dst => some (dst, sizeBits z)
  | .slt _ _ | .srt _ _ | .adu _ _ | .sbu _ _ | .wto _ | .wtoGroup _ _ | .not _ _ | .cpl _ _ | .cfr _ _ _ => none
  | .mov z dst _ | .add z dst _ | .mll z dst _ | .sub z dst _ | .and z dst _ | .orr z dst _ | .xor z dst _ =>
    some (dst, sizeBits z)
  | .mvq z dst _ | .adq z dst _ | .mlq z dst _ | .sbq z dst _ => some (dst, sizeBits z)
  | .bpl _ _ _ | .bmi _ _ _ | .bze _ _ _ | .bnz _ _ _ => none

/-- The operand that an instruction reads beside its destination; an exchange reads its special register
(44_cfr.md R183). -/
def sourceOf (i : Instr) : Option Operand :=
  match i with
  | .brk _ | .trp _ | .hpr _ | .civ _ | .reserved _ | .systemDesign _ => none
  | .snp | .sup | .ein | .din | .wti | .cls | .rss | .sil => none
  | .hnp | .ssp | .evm | .dvm | .cli | .clh | .rsh | .hil => none
  | .reservedExtension _ _ _ | .com _ | .userExtension _ _ | .reservedVectorPrefix _ _ _ => none
  | .atBrk _ _ | .atTrp _ _ | .atHvr _ _ | .atCiv _ _ | .atCom _ _ => none
  | .fcn _ _ _ _ => none
  | .fdv _ _ src | .fad _ _ src | .fml _ _ src | .fsb _ _ src => some src
  | .fbp _ _ _ | .fbm _ _ _ | .fbd _ _ _ | .fbi _ _ _ => none
  | .mllNopDstRefused _ _ | .mllNopSrcRefused _ _ | .mllNopDst _ _ | .mllNopSrc _ _ => none
  | .andNopDstRefused _ _ | .andNopSrcRefused _ _ | .andNopDst _ _ | .andNopSrc _ _ => none
  | .orrNopDstRefused _ _ | .orrNopSrcRefused _ _ | .orrNopDst _ _ | .orrNopSrc _ _ => none
  | .xorNopDstRefused _ _ | .xorNopSrcRefused _ _ | .xorNopDst _ _ | .xorNopSrc _ _ => none
  | .mlqNop _ _ => none
  | .bplNopZeroRefused _ | .bplNopMinusRefused _ | .bmiNopZeroRefused _ | .bmiNopMinusRefused _ => none
  | .bzeNopZeroRefused _ | .bzeNopMinusRefused _ | .bnzNopZeroRefused _ | .bnzNopMinusRefused _ => none
  | .bplNop _ _ | .bmiNop _ _ | .bzeNop _ _ | .bnzNop _ _ | .halvesNop _ _ | .fullsNop _ _ => none
  | .pcx _ _ => some (.special .pc)
  | .ipx _ _ => some (.special .ip)
  | .spx _ _ => some (.special .sp)
  | .rpx _ _ => some (.special .rp)
  | .exh _ _ | .sxl _ _ | .inu _ _ | .dcu _ _ | .abs _ _ | .sgn _ _ | .clr _ _ | .asr _ _ | .lsr _ _ => none
  | .slt _ _ | .srt _ _ | .adu _ _ | .sbu _ _ | .wto _ | .wtoGroup _ _ | .not _ _ | .cpl _ _ | .cfr _ _ _ => none
  | .mov _ _ src | .add _ _ src | .mll _ _ src | .sub _ _ src | .and _ _ src | .orr _ _ src | .xor _ _ src => some src
  | .mvq _ _ _ | .adq _ _ _ | .mlq _ _ _ | .sbq _ _ _ => none
  | .bpl _ _ _ | .bmi _ _ _ | .bze _ _ _ | .bnz _ _ _ => none

/-- All 64 bits of the register that an operand is; none for an operand in memory and for no operand. -/
def State.registerOf (s : State) (o : Option Operand) : Option Quad :=
  match o with
  | some (.an r) => some (s.getA r)
  | some (.dn r) => some (s.getD r)
  | some (.special x) => some (s.getSpecial x)
  | some (.mem _) | some (.form _) | none => none

/-- The state with the register that an operand is set to `v`; the same state for an operand that is no register. -/
def State.withRegister (s : State) (o : Option Operand) (v : Quad) : State :=
  match o with
  | some (.an r) => s.setA r v
  | some (.dn r) => s.setD r v
  | some (.special x) => s.setSpecial x v
  | some (.mem _) | some (.form _) | none => s

/-- Every access that the operands and the immediates of an instruction make is admitted and carried out
(20_memory.md R56, R57, R61; 30_encoding.md R92, R95); the condition of the instruction's template. -/
def operandsReady (s : State) (i : Instr) : Prop :=
  match i with
  | .brk _ | .trp _ | .hpr _ | .civ _ | .reserved _ | .systemDesign _ => True
  | .snp | .ein | .din | .wti | .cls | .rss | .sil => True
  | .hnp | .evm | .dvm | .cli | .clh | .rsh | .hil => True
  | .sup | .ssp => s.streamable 4
  | .reservedExtension _ _ _ | .com _ | .userExtension _ _ | .reservedVectorPrefix _ _ _ => True
  | .atBrk _ _ | .atTrp _ _ | .atHvr _ _ | .atCiv _ _ | .atCom _ _ => True
  | .fcn _ p dst _ => writeReady s dst (precisionBits p)
  | .fdv p dst src | .fad p dst src | .fml p dst src | .fsb p dst src => modifyReady s dst src (precisionBits p)
  | .fbp p dst q | .fbm p dst q | .fbd p dst q | .fbi p dst q => branchReady s dst (precisionBits p) q
  | .mllNopDstRefused _ _ | .mllNopSrcRefused _ _ | .mllNopDst _ _ | .mllNopSrc _ _ => True
  | .andNopDstRefused _ _ | .andNopSrcRefused _ _ | .andNopDst _ _ | .andNopSrc _ _ => True
  | .orrNopDstRefused _ _ | .orrNopSrcRefused _ _ | .orrNopDst _ _ | .orrNopSrc _ _ => True
  | .xorNopDstRefused _ _ | .xorNopSrcRefused _ _ | .xorNopDst _ _ | .xorNopSrc _ _ => True
  | .mlqNop _ _ => True
  | .bplNopZeroRefused _ | .bplNopMinusRefused _ | .bmiNopZeroRefused _ | .bmiNopMinusRefused _ => True
  | .bzeNopZeroRefused _ | .bzeNopMinusRefused _ | .bnzNopZeroRefused _ | .bnzNopMinusRefused _ => True
  | .bplNop _ _ | .bmiNop _ _ | .bzeNop _ _ | .bnzNop _ _ | .halvesNop _ _ | .fullsNop _ _ => True
  | .pcx z dst | .ipx z dst | .spx z dst | .rpx z dst => updateReady s dst (sizeBits z)
  | .exh z dst | .sxl z dst | .inu z dst | .dcu z dst => updateReady s dst (sizeBits z)
  | .abs z dst | .sgn z dst | .asr z dst | .lsr z dst => updateReady s dst (sizeBits z)
  | .clr z dst => writeReady s dst (sizeBits z)
  | .slt _ _ | .srt _ _ | .adu _ _ | .sbu _ _ | .wto _ | .wtoGroup _ _ | .not _ _ | .cpl _ _ | .cfr _ _ _ => True
  | .mov z dst src => moveReady s dst src (sizeBits z)
  | .add z dst src | .mll z dst src | .sub z dst src | .and z dst src | .orr z dst src | .xor z dst src =>
    modifyReady s dst src (sizeBits z)
  | .mvq z dst _ => writeReady s dst (sizeBits z)
  | .adq z dst _ | .mlq z dst _ | .sbq z dst _ => updateReady s dst (sizeBits z)
  | .bpl z dst q | .bmi z dst q | .bze z dst q | .bnz z dst q => branchReady s dst (sizeBits z) q

/-- The instruction can set PC to something other than the next word of the stream: a branch, an exchange with PC, or a
write to PC direct (42_quick_branches.md R156). -/
def mayJump (i : Instr) : Bool :=
  match i with
  | .bpl _ _ _ | .bmi _ _ _ | .bze _ _ _ | .bnz _ _ _ | .fbp _ _ _ | .fbm _ _ _ | .fbd _ _ _ | .fbi _ _ _ => true
  | .pcx _ _ => true
  | _ => match written i with
    | some (dst, _) => dst.isPc
    | none => false

/-- The state with everything that no instruction reads set to one fixed value: page-table pointers, vectors, COM table,
counters, interrupt bits, WTO target and COM position (10_state.md R30 to R40). -/
def State.visible (s : State) : State :=
  { s with
    interruptEnable := false, interruptPending := [], userPt := 0, superPt := 0
    brkVector := 0, trpVector := 0, hvrVector := 0, civVector := 0
    comTable := Vector.replicate 32 0, profile := Vector.replicate 8 0, special := Vector.replicate 8 0
    wtoTarget := none, comPosition := none }

/-- What can be seen of an outcome. -/
def visibleOutcome (o : Host.Outcome State Fault Refusal) : Host.Outcome State Fault Refusal :=
  match o with
  | .next t => .next t.visible
  | .fault f => .fault f
  | .refused r => .refused r

end Sys2Proof.Machine
end

