-- ==== Sys2Proof/Certificates/Slice0/Obligations.lean ====
section
/-! DEFINITION. The statements for the provers. In a statement about `exec`, the state is the one after the fetch: its PC
is already past the instruction word (10_state.md R25). Rules that the spec marks as its own decisions are taken over as
the model's choices: notes/assumptions/16.md lists them. -/

open Sys2Proof Sys2Proof.Machine

/-! ## Encoding -/

/-- Decoding the word of a well-formed instruction gives it back, every field at every value (30_encoding.md R80 to
R103). -/
def Obligations.DecodeOfEncode : Prop := ∀ i : Instr, i.wf = true → decodeWord (encode i) = i

/-- Every one of the 65536 words stands for a well-formed instruction whose encoding it is (30_encoding.md R108). -/
def Obligations.EveryWordDecodes : Prop := ∀ w : Word, (decodeWord w).wf = true ∧ encode (decodeWord w) = w

/-- Example words of the rules, one per family, decode to the instructions the rules name. -/
def Obligations.SampleWordsDecode : Prop :=
  decodeWord 0x11B0 = .mov .l (.dn 1) (.dn 0) ∧ decodeWord 0x74C9 = .sub .q (.dn 4) (.mem 1) ∧
  decodeWord 0x1020 = .mvq .l (.dn 0) 0 ∧ decodeWord 0xA81E = .bmi .w (.mem 0) 30 ∧
  decodeWord 0x3268 = .fad .float (.dn 2) (.mem 0) ∧ decodeWord 0xC97C = .fbd .float (.mem 1) 28 ∧
  decodeWord 0x99D8 = .pcx .q (.form .pcSp) ∧ decodeWord 0x9BDA = .ipx .q (.form .ipRp) ∧
  decodeWord 0x9183 = .dcu .w (.dn 1) ∧ decodeWord 0x9097 = .lsr .w (.dn 0) ∧ decodeWord 0x93D4 = .wto (.dn 3) ∧
  decodeWord 0x3A78 = .com 5 ∧ decodeWord 0x187A = .userExtension 0 .pc ∧ decodeWord 0x1AF8 = .trp 0 ∧
  decodeWord 0x3CFA = .sup ∧ decodeWord 0x7EFA = .dvm

/-- The byte stream of a well-formed instruction followed by any bytes decodes to it and leaves those bytes
(30_encoding.md R81, R104). -/
def Obligations.DecodeBytes : Prop :=
  ∀ (i : Instr) (rest : List Byte), i.wf = true → decode (encodeBytes i ++ rest) = .ok (i, rest)

/-! ## The step -/

/-- A step runs the decoded instruction: when the word at PC can be taken from the stream, the step is exec of the
instruction that the word encodes, with PC one past it (10_state.md R25). -/
def Obligations.StepRunsDecoded : Prop :=
  ∀ (s : State) (w : Word) (i : Instr), s.vmEnable = false → s.mapped s.pc = true → s.memory.wordAt s.pc = some w →
    s.isStored s.pc = false → i.wf = true → w = encode i → step s = exec i (s.setPc (s.pc + 1))

/-- Where no instruction word can be taken at PC, the step stops with the reason. -/
def Obligations.StepStops : Prop :=
  ∀ s : State,
    (s.vmEnable = true → step s = .refused .translationUnspecified) ∧
    (s.vmEnable = false → s.mapped s.pc = false → step s = .fault (.outsideMemory s.pc)) ∧
    (s.vmEnable = false → s.mapped s.pc = true → s.memory.wordAt s.pc = none → step s = .fault (.noValue s.pc)) ∧
    (s.vmEnable = false → s.mapped s.pc = true → (s.memory.wordAt s.pc).isSome = true → s.isStored s.pc = true →
      step s = .refused .storeToCode)

/-- The fetched word's high byte is the first of its two bytes in memory (30_encoding.md R81). -/
def Obligations.FetchByteOrder : Prop :=
  ∀ (s t : State) (w : Word), fetch s = .ok (w, t) →
    s.memory.byteAt (2 * s.pc.toNat) = some (w.extractLsb' 8 8) ∧
    s.memory.byteAt (2 * s.pc.toNat + 1) = some (w.extractLsb' 0 8)

/-- A word placed where the next step fetches is run by that step, whatever the state. -/
def Obligations.PlacedWordRuns : Prop :=
  ∀ (s : State) (i : Instr), i.wf = true →
    step (s.withFetchWord 16 (encode i).toNat) =
      exec i ((s.withFetchWord 16 (encode i).toNat).setPc (s.pc + 1))

/-- After a store of a word at the address of the next instruction, the next step is refused (20_memory.md R61). -/
def Obligations.StoreToNextInstruction : Prop :=
  ∀ (s t : State) (a d : RegNum), exec (.mov .w (.mem a) (.dn d)) s = .next t → s.getA a = s.pc →
    step t = .refused .storeToCode

/-! ## Memory -/

/-- What is written at an address is read back from it, at every width and every address (20_memory.md R52). -/
def Obligations.ReadAfterWrite : Prop :=
  ∀ (s t : State) (address v : Quad) (z : Size), writeWords s address (stepOf (sizeBits z)) v = .ok t →
    readWords t address (stepOf (sizeBits z)) = .ok (BitVec.ofNat 64 (v.toNat % 2 ^ sizeBits z))

/-- Word i of a 64-bit write holds bits 63-16i to 48-16i of the value: the lowest address is the most significant
(20_memory.md R52). -/
def Obligations.MixedWidthRead : Prop :=
  ∀ (s t : State) (address v : Quad), writeWords s address 4 v = .ok t → ∀ i : Nat, i < 4 →
    readWords t (address + BitVec.ofNat 64 i) 1 = .ok (BitVec.ofNat 64 (v.toNat / 2 ^ (48 - 16 * i) % 2 ^ 16))

/-- Every access that cannot be carried out stops the instruction that makes it. An instruction that completes found all its
operands and immediates accessible: translation off, every word mapped, every word read valued, no word of the stream stored
to (20_memory.md R56, R57, R61). The stop has the name of the first word that fails: shown for a MOV of every size from and to
every memory operand. The names and their order are the model's: notes/assumptions/6.md, 7.md and 14.md. -/
def Obligations.MemoryStops : Prop :=
  (∀ (i : Instr) (s t : State), exec i s = .next t → operandsReady s i) ∧
  ∀ (s : State) (z : Size) (d : RegNum) (o : Operand) (x : Quad) (j : Nat), j < stepOf (sizeBits z) →
    let word := x + BitVec.ofNat 64 j
    (sourceAddress s o = some x →
      (s.vmEnable = true → exec (.mov z (.dn d) o) s = .refused .translationUnspecified) ∧
      (s.readable x j → s.mapped word = false → exec (.mov z (.dn d) o) s = .fault (.outsideMemory word)) ∧
      (s.readable x j → s.mapped word = true → s.memory.wordAt word = none →
        exec (.mov z (.dn d) o) s = .fault (.noValue word))) ∧
    (storeAddress s o (sizeBits z) = some x →
      (s.vmEnable = true → exec (.mov z o (.dn d)) s = .refused .translationUnspecified) ∧
      (s.writable x j → s.mapped word = false → exec (.mov z o (.dn d)) s = .fault (.outsideMemory word))) ∧
    (s.readable s.pc (stepOf (sizeBits z)) → s.isStored (s.pc + BitVec.ofNat 64 j) = true →
      exec (.mov z (.dn d) (.form .pcSp)) s = .refused .storeToCode)

/-! ## Reset and invariants -/

/-- At power-on the register specials 1 to 7 are 0 and no WTO target is pending (10_state.md R37, R42). -/
def Obligations.ResetGiven : Prop :=
  (∀ k : Fin 8, k ≠ 0 → State.reset.special[k] = 0) ∧ State.reset.wtoTarget = none

/-- The invariant holds at reset. That translation is off then is the model's choice (notes/assumptions/3.md); so is that no
COM pair is pending, for whose position 10_state.md R42 gives no reset value (notes/assumptions/5.md), and that memory lists
nothing (notes/assumptions/6.md). -/
def Obligations.InvariantAtReset : Prop := State.reset.Inv

/-- Every step from a state that meets the invariant leads to a state that meets it. -/
def Obligations.StepKeepsInvariant : Prop := ∀ s t : State, s.Inv → step s = .next t → t.Inv

/-- No step changes the mode, a pending interrupt, a vector, the COM table, a profile counter, a register special, the
WTO target, the COM position or the platform. That the register specials keep their value while cycles, branches and cache
misses go by is the model's choice (notes/assumptions/11.md), and so is that no interrupt becomes pending from outside
(notes/assumptions/12.md). -/
def Obligations.StepKeepsSystem : Prop :=
  ∀ s t : State, step s = .next t →
    SameSystem s t ∧ t.mode = s.mode ∧ t.interruptPending = s.interruptPending

/-- A user-mode step changes nothing of the control state; a supervisor-mode step changes at most the user page-table
pointer and the interrupt enable (60_exceptions.md R300). That the pending interrupts are unchanged rests on no interrupt
arriving from outside, the model's choice: notes/assumptions/12.md. -/
def Obligations.ModesConfineSteps : Prop :=
  ∀ s t : State, step s = .next t →
    (s.mode = .user → SameControl s t) ∧
    (s.mode = .supervisor → t.mode = s.mode ∧ t.interruptPending = s.interruptPending ∧ t.vmEnable = s.vmEnable ∧
      t.superPt = s.superPt)

/-- No step depends on what no instruction reads: two states that differ only there have steps that differ only there. -/
def Obligations.HiddenStateUnread : Prop :=
  ∀ s t : State, s.visible = t.visible → visibleOutcome (step s) = visibleOutcome (step t)

/-- An instruction that is no control transfer leaves PC after the words it consumed, whose number the instruction word
alone gives (10_state.md R25, 30_encoding.md R104, 42_quick_branches.md R156). -/
def Obligations.PcAdvance : Prop :=
  ∀ (i : Instr) (s t : State), i.wf = true → mayJump i = false → exec i s = .next t →
    t.pc = s.pc + BitVec.ofNat 64 (followingWords i)

/-- Memory changes only where the written operand says, and not at all for an instruction that writes no memory operand
(20_memory.md R51). -/
def Obligations.OnlyWrittenOperandStores : Prop :=
  ∀ (i : Instr) (s t : State), exec i s = .next t →
    (∀ dst n, written i = some (dst, n) → (∀ r, dst ≠ .mem r) → dst.isForm = false → t.memory = s.memory) ∧
    (written i = none → t.memory = s.memory)

/-! ## Operand writes -/

/-- The Dn write law: the low `s` bits are the value's, the rest keep their old value (10_state.md R23); An and the
special registers receive all 64 bits (30_encoding.md R92, R93). -/
def Obligations.RegisterWriteLaw : Prop :=
  ∀ (s : State) (z : Size) (v : Quad) (r : RegNum) (x : Special),
    (∃ t, writeDst s (.dn r) (sizeBits z) (opWidth (.dn r) (sizeBits z)) v = .ok t ∧
      (t.getD r).toNat =
        (s.getD r).toNat / 2 ^ sizeBits z * 2 ^ sizeBits z + v.toNat % 2 ^ sizeBits z) ∧
    (∃ t, writeDst s (.an r) (sizeBits z) (opWidth (.an r) (sizeBits z)) v = .ok t ∧ t.getA r = v) ∧
    (∃ t, writeDst s (.special x) (sizeBits z) (opWidth (.special x) (sizeBits z)) v = .ok t ∧ t.getSpecial x = v)

/-- The Dn write law for every instruction (10_state.md R23): one whose destination of `n` bits is Dn leaves the bits from
`n` on, and the low `n` bits it writes depend only on the low `n` bits of its operands: changing the bits from `n` on of the
data registers, and of the register that its source operand is (An, Dn or special direct), changes none of them. -/
def Obligations.DataRegisterModuloSize : Prop :=
  ∀ (i : Instr) (s t : State) (r : RegNum) (n : Nat), written i = some (.dn r, n) → exec i s = .next t →
    (t.getD r).toNat / 2 ^ n = (s.getD r).toNat / 2 ^ n ∧
    ∀ (d : Vector Quad 8) (v : Quad) (u : State), (∀ q : RegNum, (s.getD q).toNat % 2 ^ n = d[q].toNat % 2 ^ n) →
      (∀ x, s.registerOf (sourceOf i) = some x → x.toNat % 2 ^ n = v.toNat % 2 ^ n) →
      exec i ({ s with d := d }.withRegister (sourceOf i) v) = .next u →
        (u.getD r).toNat % 2 ^ n = (t.getD r).toNat % 2 ^ n

/-- The operand pairs refused because one pointer is moved twice, or moved and read, are exactly those of the two lists
(30_encoding.md R95), for destinations that have a write form. -/
def Obligations.PointerClashes : Prop :=
  ∀ dst src : Operand, dst ≠ .form .spSp → dst ≠ .form .rpRp →
    (samePointer .write dst src = true ↔ (dst, src) ∈ writeClashes) ∧
    (samePointer .modify dst src = true ↔ (dst, src) ∈ writeClashes ∨ (dst, src) ∈ readClashes)

/-- The refused operand pairs: MOV on the first list; ADD, SUB and the float operations on both; MLL, AND, ORR and XOR
too, where they are no NOP form (30_encoding.md R95). -/
def Obligations.SamePointerRefused : Prop :=
  ∀ (dst src : Operand) (z : Size) (p : Precision) (s : State),
    ((dst, src) ∈ writeClashes → exec (.mov z dst src) s = .refused .samePointerTwice) ∧
    ((dst, src) ∈ writeClashes ∨ (dst, src) ∈ readClashes →
      exec (.add z dst src) s = .refused .samePointerTwice ∧ exec (.sub z dst src) s = .refused .samePointerTwice ∧
      exec (.mll z dst src) s = .refused .samePointerTwice ∧ exec (.and z dst src) s = .refused .samePointerTwice ∧
      exec (.orr z dst src) s = .refused .samePointerTwice ∧ exec (.xor z dst src) s = .refused .samePointerTwice ∧
      exec (.fdv p dst src) s = .refused .samePointerTwice ∧ exec (.fad p dst src) s = .refused .samePointerTwice ∧
      exec (.fml p dst src) s = .refused .samePointerTwice ∧ exec (.fsb p dst src) s = .refused .samePointerTwice)

/-- Every instruction that writes its destination refuses the destinations "(+SP)" and "(+RP)"
(30_encoding.md R92). -/
def Obligations.PlusWriteRefused : Prop :=
  ∀ (f : Form) (z : Size) (p : Precision) (src : Operand) (q : Quick) (op : BitVec 2) (x : Special) (s : State),
    f = .spSp ∨ f = .rpRp →
      ∀ i ∈ ([.mov z (.form f) src, .add z (.form f) src, .mll z (.form f) src, .sub z (.form f) src,
          .and z (.form f) src, .orr z (.form f) src, .xor z (.form f) src, .mvq z (.form f) q, .adq z (.form f) q,
          .mlq z (.form f) q, .sbq z (.form f) q, .fdv p (.form f) src, .fad p (.form f) src, .fml p (.form f) src,
          .fsb p (.form f) src, .fcn op p (.form f) x, .pcx z (.form f), .ipx z (.form f), .spx z (.form f),
          .rpx z (.form f), .exh z (.form f), .sxl z (.form f), .inu z (.form f), .dcu z (.form f), .abs z (.form f),
          .sgn z (.form f), .clr z (.form f), .asr z (.form f), .lsr z (.form f)] : List Instr),
        exec i s = .refused .plusWriteForm

/-! ## Two-operand integer instructions -/

/-- MOV completes on every admitted and accessible operand pair: the destination, which is not read, receives the source
modulo its width, sign-extended for An and special registers (40_integer_ops.md R121). -/
def Obligations.MovResult : Prop :=
  ∀ (z : Size) (dst src : Operand) (s : State), moveReady s dst src (sizeBits z) →
    exec (.mov z dst src) s =
      .next (writeState (srcState s src (sizeBits z)) dst (sizeBits z) (opWidth dst (sizeBits z))
        (wrapTo (opWidth dst (sizeBits z)) (signedOf (sizeBits z) (srcValue s src (sizeBits z)))))

/-- ADD, SUB and MLL complete on every admitted and accessible operand pair: the destination receives sum, difference
(destination minus source) or product, of the sign-extended source, modulo 2^opw (40_integer_ops.md R122 to R124). -/
def Obligations.ArithmeticResult : Prop :=
  ∀ (z : Size) (dst src : Operand) (s : State), modifyReady s dst src (sizeBits z) →
    let n := sizeBits z
    let opw := opWidth dst n
    let b := signedOf n (srcValue s src n)
    let a : Int := (dstValue (srcState s src n) dst n opw).toNat
    exec (.add z dst src) s = .next (writeState (modifyAt s dst src n) dst n opw (wrapTo opw (a + b))) ∧
    exec (.sub z dst src) s = .next (writeState (modifyAt s dst src n) dst n opw (wrapTo opw (a - b))) ∧
    exec (.mll z dst src) s = .next (writeState (modifyAt s dst src n) dst n opw (wrapTo opw (a * b)))

/-- AND, ORR and XOR complete on every admitted and accessible operand pair: each bit of the destination receives the
bitwise result with the sign-extended source (40_integer_ops.md R125 to R127). -/
def Obligations.LogicResult : Prop :=
  ∀ (z : Size) (dst src : Operand) (s : State), modifyReady s dst src (sizeBits z) →
    let n := sizeBits z
    let opw := opWidth dst n
    let b := wrapTo opw (signedOf n (srcValue s src n))
    let a := dstValue (srcState s src n) dst n opw
    exec (.and z dst src) s =
      .next (writeState (modifyAt s dst src n) dst n opw (BitVec.ofNat 64 (a.toNat &&& b.toNat))) ∧
    exec (.orr z dst src) s =
      .next (writeState (modifyAt s dst src n) dst n opw (BitVec.ofNat 64 (a.toNat ||| b.toNat))) ∧
    exec (.xor z dst src) s =
      .next (writeState (modifyAt s dst src n) dst n opw (BitVec.ofNat 64 (a.toNat ^^^ b.toNat)))

/-- MOV changes its destination, the pointers its operands move, PC, and nothing else. -/
def Obligations.MovFrame : Prop :=
  ∀ (z : Size) (dst src : Operand) (s t : State), exec (.mov z dst src) s = .next t →
    FrameOf s (srcState s src (sizeBits z)) t dst (sizeBits z) (movedBy .write dst src)

/-- ADD, SUB, MLL, AND, ORR and XOR change their destination, the pointers their operands move, PC, and nothing else. -/
def Obligations.IntegerFrame : Prop :=
  ∀ (z : Size) (dst src : Operand) (s t : State),
    ∀ i ∈ ([.add z dst src, .sub z dst src, .mll z dst src, .and z dst src, .orr z dst src, .xor z dst src] :
        List Instr),
      exec i s = .next t → FrameOf s (modifyAt s dst src (sizeBits z)) t dst (sizeBits z) (movedBy .modify dst src)

/-- With destination PC direct, MOV jumps to the sign-extended source, ADD and SUB jump relative to the address after
the instruction (40_integer_ops.md R128). -/
def Obligations.JumpByWrite : Prop :=
  ∀ (z : Size) (r : RegNum) (s : State),
    exec (.mov z (.special .pc) (.dn r)) s = .next (s.setPc (BitVec.ofInt 64 (signedOf (sizeBits z) (s.getD r)))) ∧
    exec (.add z (.special .pc) (.dn r)) s =
      .next (s.setPc (s.pc + BitVec.ofInt 64 (signedOf (sizeBits z) (s.getD r)))) ∧
    exec (.sub z (.special .pc) (.dn r)) s =
      .next (s.setPc (s.pc - BitVec.ofInt 64 (signedOf (sizeBits z) (s.getD r))))

/-- What a push through "(-SP)" stores, a pop through "(SP+)" into the same register reads back, and SP is as before
(10_state.md R27, 30_encoding.md R91, R92). -/
def Obligations.PushThenPop : Prop :=
  ∀ (z : Size) (r : RegNum) (s t : State), exec (.mov z (.form .pcSp) (.dn r)) s = .next t →
    t.sp = s.sp - BitVec.ofNat 64 (stepOf (sizeBits z)) ∧
    ∀ v : Quad, exec (.mov z (.dn r) (.form .spSp)) (t.setPc v) = .next ((t.setPc v).setSp s.sp)

/-! ## Quick operations -/

/-- MVQ, ADQ, MLQ and SBQ complete on every accessible destination: it receives the quick 1 to 32, or sum, product or
difference with it, modulo 2^opw (41_quick_ops.md R141 to R144). MVQ does not read its destination. -/
def Obligations.QuickResult : Prop :=
  ∀ (z : Size) (dst : Operand) (q : Quick) (s : State),
    let n := sizeBits z
    let opw := opWidth dst n
    let a : Int := (dstValue s dst n opw).toNat
    (writeReady s dst n →
      exec (.mvq z dst q) s = .next (writeState s dst n opw (BitVec.ofNat 64 (quickNumber q)))) ∧
    (updateReady s dst n →
      exec (.adq z dst q) s =
        .next (writeState (dstState s dst n) dst n opw (wrapTo opw (a + quickNumber q))) ∧
      exec (.mlq z dst q) s =
        .next (writeState (dstState s dst n) dst n opw (wrapTo opw (a * quickNumber q))) ∧
      exec (.sbq z dst q) s =
        .next (writeState (dstState s dst n) dst n opw (wrapTo opw (a - quickNumber q))))

/-- MVQ, ADQ, MLQ and SBQ change their destination, the pointers it moves, PC if it is the destination or is read
through, and nothing else; MVQ moves only the pointer of its push. -/
def Obligations.QuickFrame : Prop :=
  ∀ (z : Size) (dst : Operand) (q : Quick) (s t : State),
    (exec (.mvq z dst q) s = .next t → FrameOf s s t dst (sizeBits z) (dstUpdates .write dst)) ∧
    ∀ i ∈ ([.adq z dst q, .mlq z dst q, .sbq z dst q] : List Instr),
      exec i s = .next t → FrameOf s (dstState s dst (sizeBits z)) t dst (sizeBits z) (dstUpdates .modify dst)

/-! ## Branches -/

/-- BPL, BMI, BZE and BNZ complete on every accessible tested operand but an immediate: on their condition PC becomes the
address after the instruction word plus the displacement, else the address after the instruction
(42_quick_branches.md R150 to R155). -/
def Obligations.BranchResult : Prop :=
  ∀ (z : Size) (dst : Operand) (q : Quick) (s : State), branchReady s dst (sizeBits z) q →
    let n := sizeBits z
    let opw := opWidth dst n
    let v := (dstValue s dst n opw).toNat
    let past := displacementState (dstState s dst n) q
    let taken := past.setPc (s.pc + BitVec.ofInt 64 (displacementNumber (dstState s dst n) q))
    exec (.bpl z dst q) s = .next (if v < 2 ^ (opw - 1) then taken else past) ∧
    exec (.bmi z dst q) s = .next (if 2 ^ (opw - 1) ≤ v then taken else past) ∧
    exec (.bze z dst q) s = .next (if v = 0 then taken else past) ∧
    exec (.bnz z dst q) s = .next (if v ≠ 0 then taken else past)

/-- FBP, FBM, FBD and FBI complete on every accessible tested operand but an immediate; whether they jump is decided by
the uninterpreted tests of Config (43_float_ops.md R166 to R170). An An operand is its low 32 or 64 bits: the spec's
reading, notes/assumptions/10.md. -/
def Obligations.FloatBranchResult : Prop :=
  ∀ (p : Precision) (dst : Operand) (q : Quick) (s : State), branchReady s dst (precisionBits p) q →
    let n := precisionBits p
    let v := dstValue s dst n n
    let past := displacementState (dstState s dst n) q
    let taken := past.setPc (s.pc + BitVec.ofInt 64 (displacementNumber (dstState s dst n) q))
    exec (.fbp p dst q) s = .next (if Config.fnumIsPlus p v then taken else past) ∧
    exec (.fbm p dst q) s = .next (if Config.fnumIsMinus p v then taken else past) ∧
    exec (.fbd p dst q) s = .next (if Config.fnumIsDenormalOrZero p v then taken else past) ∧
    exec (.fbi p dst q) s = .next (if Config.fnumIsInfinity p v then taken else past)

/-- A branch changes PC and the pointer that its tested operand pops, and nothing else. -/
def Obligations.BranchFrame : Prop :=
  ∀ (z : Size) (p : Precision) (dst : Operand) (q : Quick) (s t : State),
    ∀ i ∈ ([.bpl z dst q, .bmi z dst q, .bze z dst q, .bnz z dst q, .fbp p dst q, .fbm p dst q, .fbd p dst q,
        .fbi p dst q] : List Instr),
      exec i s = .next t →
        OnlyPointers s t (fun x => dst == .form .ipRp && x == .ip || dst == .form .spSp && x == .sp ||
          dst == .form .rpRp && x == .rp)

/-- A branch whose tested operand is an immediate is refused (42_quick_branches.md R150, 43_float_ops.md R166). -/
def Obligations.BranchOnImmediateRefused : Prop :=
  ∀ (z : Size) (p : Precision) (q : Quick) (s : State),
    ∀ i ∈ ([.bpl z (.form .pcSp) q, .bmi z (.form .pcSp) q, .bze z (.form .pcSp) q, .bnz z (.form .pcSp) q,
        .fbp p (.form .pcSp) q, .fbm p (.form .pcSp) q, .fbd p (.form .pcSp) q, .fbi p (.form .pcSp) q] : List Instr),
      exec i s = .refused .branchOnImmediate

/-! ## Float operations -/

/-- FDV, FAD, FML and FSB complete on every admitted and accessible operand pair with the uninterpreted result of Config,
destination first; a Dn or An destination keeps the bits above the precision (43_float_ops.md R161 to R165; An:
notes/assumptions/10.md). -/
def Obligations.FloatResult : Prop :=
  ∀ (p : Precision) (dst src : Operand) (s : State), modifyReady s dst src (precisionBits p) →
    let n := precisionBits p
    let b := srcValue s src n
    let a := dstValue (srcState s src n) dst n n
    exec (.fdv p dst src) s =
      .next (writeState (modifyAt s dst src n) dst n n (BitVec.ofNat 64 ((Config.fnumDiv p a b).toNat % 2 ^ n))) ∧
    exec (.fad p dst src) s =
      .next (writeState (modifyAt s dst src n) dst n n (BitVec.ofNat 64 ((Config.fnumAdd p a b).toNat % 2 ^ n))) ∧
    exec (.fml p dst src) s =
      .next (writeState (modifyAt s dst src n) dst n n (BitVec.ofNat 64 ((Config.fnumMul p a b).toNat % 2 ^ n))) ∧
    exec (.fsb p dst src) s =
      .next (writeState (modifyAt s dst src n) dst n n (BitVec.ofNat 64 ((Config.fnumSub p a b).toNat % 2 ^ n)))

/-- FDV, FAD, FML and FSB change their destination, the pointers their operands move, PC, and nothing else. -/
def Obligations.FloatFrame : Prop :=
  ∀ (p : Precision) (dst src : Operand) (s t : State),
    ∀ i ∈ ([.fdv p dst src, .fad p dst src, .fml p dst src, .fsb p dst src] : List Instr),
      exec i s = .next t →
        FrameOf s (modifyAt s dst src (precisionBits p)) t dst (precisionBits p) (movedBy .modify dst src)

/-- FCN completes on every writable destination: it receives the uninterpreted constant, without being read, and nothing
else changes. The model's choice among those of 43_float_ops.md R171: notes/assumptions/9.md. -/
def Obligations.FloatConstant : Prop :=
  ∀ (op : BitVec 2) (p : Precision) (dst : Operand) (x : Special) (s : State),
    let n := precisionBits p
    (writeReady s dst n →
      exec (.fcn op p dst x) s =
        .next (writeState s dst n n (BitVec.ofNat 64 ((Config.fnumConst p op x).toNat % 2 ^ n)))) ∧
    ∀ t, exec (.fcn op p dst x) s = .next t → FrameOf s s t dst n (dstUpdates .write dst)

/-! ## Exchanges -/

/-- PCX, IPX, SPX and RPX complete on every accessible destination of 64 bits, but SPX on "(-SP)" and RPX on "(-RP)": the
destination receives the special register, as it stands after the destination is read, and the special register receives
what was read (44_cfr.md R183 to R187). -/
def Obligations.ExchangeResult : Prop :=
  ∀ (z : Size) (dst : Operand) (s : State), opWidth dst (sizeBits z) = 64 → updateReady s dst (sizeBits z) →
    let read := dstState s dst (sizeBits z)
    let value := dstValue s dst (sizeBits z) 64
    let swapped := fun x : Special => (writeState read dst (sizeBits z) 64 (read.getSpecial x)).setSpecial x value
    exec (.pcx z dst) s = .next (swapped .pc) ∧
    exec (.ipx z dst) s = .next (swapped .ip) ∧
    (dst ≠ .form .pcSp → exec (.spx z dst) s = .next (swapped .sp)) ∧
    (dst ≠ .form .ipRp → exec (.rpx z dst) s = .next (swapped .rp))

/-- An exchange changes its special register, its destination, the pointers that moves, PC, and nothing else. -/
def Obligations.ExchangeFrame : Prop :=
  ∀ (z : Size) (dst : Operand) (s t : State),
    let frame := fun x : Special =>
      FrameOf s (dstState s dst (sizeBits z)) t dst (sizeBits z) (fun y => y == x || dstUpdates .modify dst y)
    (exec (.pcx z dst) s = .next t → frame .pc) ∧ (exec (.ipx z dst) s = .next t → frame .ip) ∧
    (exec (.spx z dst) s = .next t → frame .sp) ∧ (exec (.rpx z dst) s = .next t → frame .rp)

/-- An exchange narrower than 64 bits is refused, and so are SPX on "(-SP)", RPX on "(-RP)", and a halves or fulls
function on An or a special register at .W or .L (44_cfr.md R183, R186, R187, R190, R200). -/
def Obligations.NarrowRefused : Prop :=
  ∀ (z : Size) (dst : Operand) (r : RegNum) (x : Special) (s : State),
    (z ≠ .q → (∀ r, dst ≠ .an r) → dst.isSpecial = false → dst ≠ .form .spSp → dst ≠ .form .rpRp →
      ∀ i ∈ ([.pcx z dst, .ipx z dst, .spx z dst, .rpx z dst] : List Instr), exec i s = .refused .narrowExchange) ∧
    exec (.spx .q (.form .pcSp)) s = .refused .samePointerTwice ∧
    exec (.rpx .q (.form .ipRp)) s = .refused .samePointerTwice ∧
    (z ≠ .q → ∀ o ∈ ([.an r, .special x] : List Operand),
      ∀ i ∈ ([.exh z o, .sxl z o, .inu z o, .dcu z o, .abs z o, .sgn z o, .clr z o, .asr z o, .lsr z o] : List Instr),
        exec i s = .refused .narrowUnaryOnAddressRegister)

/-- PCX through a register leaves the return address there, and a second PCX on it returns (44_cfr.md R184). -/
def Obligations.CallAndReturnByRegister : Prop :=
  ∀ (z : Size) (r : RegNum) (s : State) (next : Quad),
    (∃ t, exec (.pcx z (.an r)) s = .next t ∧ t.pc = s.getA r ∧ t.getA r = s.pc ∧
      ∃ u, exec (.pcx z (.an r)) (t.setPc next) = .next u ∧ u.pc = s.pc ∧ u.getA r = next) ∧
    (∃ t, exec (.pcx .q (.dn r)) s = .next t ∧ t.pc = s.getD r ∧ t.getD r = s.pc ∧
      ∃ u, exec (.pcx .q (.dn r)) (t.setPc next) = .next u ∧ u.pc = s.pc ∧ u.getD r = next)

/-- A subroutine call by PCX on "(PC+)/(-SP)" pushes the address after its 64-bit target, and MOV.Q PC,(SP+) returns there
with SP as before the call (44_cfr.md R184). -/
def Obligations.SubroutineCallAndReturn : Prop :=
  ∀ (s : State) (next : Quad), s.streamable 4 → s.writable (s.sp - 4) 4 →
    ∃ t, exec (.pcx .q (.form .pcSp)) s = .next t ∧ t.pc = s.valueAt s.pc 4 ∧ t.sp = s.sp - 4 ∧
      ∃ u, exec (.mov .q (.special .pc) (.form .spSp)) (t.setPc next) = .next u ∧ u.pc = s.pc + 4 ∧ u.sp = s.sp

/-- IPX on "(IP+)/(-RP)" enters a threaded definition, leaving PC alone, and MOV.Q IP,(RP+) leaves it at the next cell
(44_cfr.md R185). -/
def Obligations.ThreadedEnterAndExit : Prop :=
  ∀ (s : State) (next : Quad), s.readable s.ip 4 → s.writable (s.rp - 4) 4 →
    ∃ t, exec (.ipx .q (.form .ipRp)) s = .next t ∧ t.ip = s.valueAt s.ip 4 ∧ t.rp = s.rp - 4 ∧ t.pc = s.pc ∧
      ∃ u, exec (.mov .q (.special .ip) (.form .rpRp)) (t.setPc next) = .next u ∧ u.ip = s.ip + 4 ∧ u.rp = s.rp ∧
        u.pc = next

/-! ## Halves and fulls -/

/-- EXH, SXL, INU and DCU: their words, their completion on every accessible operand with the result given by the number
`v` of `n` bits and its halves, and EXH twice restoring the operand (44_cfr.md R190 to R194). The amount 1 of INU and DCU
is the spec's own reading, D38: notes/assumptions/16.md. -/
def Obligations.HalvesResult : Prop :=
  (decodeWord 0x90A0 = .exh .l (.dn 0) ∧ decodeWord 0x90A1 = .sxl .l (.dn 0) ∧ decodeWord 0x9182 = .inu .w (.dn 1) ∧
    decodeWord 0x9183 = .dcu .w (.dn 1)) ∧
  (∀ (z : Size) (dst : Operand) (s : State), opWidth dst (sizeBits z) = sizeBits z → updateReady s dst (sizeBits z) →
    let n := sizeBits z
    let half := 2 ^ (n / 2)
    let v := (dstValue s dst n n).toNat
    let lo := v % half
    let hi := v / half
    let result := fun r : Nat => writeState (dstState s dst n) dst n n (BitVec.ofNat 64 r)
    exec (.exh z dst) s = .next (result (lo * half + hi)) ∧
    exec (.sxl z dst) s = .next (result (if lo < half / 2 then lo else (half - 1) * half + lo)) ∧
    exec (.inu z dst) s = .next (result ((hi + 1) % half * half + lo)) ∧
    exec (.dcu z dst) s = .next (result ((hi + half - 1) % half * half + lo))) ∧
  ∀ (z : Size) (r : RegNum) (s : State), ∃ t, exec (.exh z (.dn r)) s = .next t ∧ exec (.exh z (.dn r)) t = .next s

/-- ABS, SGN, ASR, LSR and CLR: their words, and their completion on every accessible operand with the result given by
the number `v` of `n` bits; CLR does not read its operand (44_cfr.md R200 to R208). The shift count
SHIFT_AMT = 1 is the spec's own reading, D38: notes/assumptions/16.md. -/
def Obligations.FullsResult : Prop :=
  (decodeWord 0x9090 = .abs .w (.dn 0) ∧ decodeWord 0x92B1 = .sgn .l (.dn 2) ∧ decodeWord 0x95D5 = .clr .q (.dn 5) ∧
    decodeWord 0x9096 = .asr .w (.dn 0) ∧ decodeWord 0x9097 = .lsr .w (.dn 0)) ∧
  ∀ (z : Size) (dst : Operand) (s : State), opWidth dst (sizeBits z) = sizeBits z →
    let n := sizeBits z
    let top := 2 ^ (n - 1)
    let v := (dstValue s dst n n).toNat
    let result := fun r : Nat => writeState (dstState s dst n) dst n n (BitVec.ofNat 64 r)
    (updateReady s dst n →
      exec (.abs z dst) s = .next (result (if v < top then v else 2 ^ n - v)) ∧
      exec (.sgn z dst) s = .next (result (if v < top then 0 else 2 ^ n - 1)) ∧
      exec (.asr z dst) s = .next (result (if v < top then v / 2 else v / 2 + top)) ∧
      exec (.lsr z dst) s = .next (result (v / 2))) ∧
    (writeReady s dst n → exec (.clr z dst) s = .next (writeState s dst n n 0))

/-- The halves and fulls functions that read their operand change it, the pointers it moves, PC, and nothing else; CLR
moves only the pointer of its push. -/
def Obligations.UnaryFrame : Prop :=
  ∀ (z : Size) (dst : Operand) (s t : State),
    (∀ i ∈ ([.exh z dst, .sxl z dst, .inu z dst, .dcu z dst, .abs z dst, .sgn z dst, .asr z dst, .lsr z dst] :
        List Instr),
      exec i s = .next t → FrameOf s (dstState s dst (sizeBits z)) t dst (sizeBits z) (dstUpdates .modify dst)) ∧
    (exec (.clr z dst) s = .next t → FrameOf s s t dst (sizeBits z) (dstUpdates .write dst))

/-! ## NOPs and the system instructions -/

/-- The NOP forms change nothing: PC is already past the one instruction word (30_encoding.md R102, 45_system_ops.md
R263). -/
def Obligations.NopResult : Prop :=
  ∀ (z : Size) (o : Operand) (q : Quick) (fn : Code3) (x : Special) (s : State),
    ∀ i ∈ ([.mllNopDst z o, .mllNopSrc z o, .andNopDst z o, .andNopSrc z o, .orrNopDst z o, .orrNopSrc z o,
        .xorNopDst z o, .xorNopSrc z o, .mlqNop z q, .bplNop z q, .bmiNop z q, .bzeNop z q, .bnzNop z q,
        .halvesNop z fn, .fullsNop z fn, .userExtension fn x] : List Instr),
      exec i s = .next s

/-- The forms of the NOP set that would have a side effect are refused (30_encoding.md R102). -/
def Obligations.NopRefused : Prop :=
  ∀ (z : Size) (f : Form) (s : State),
    ∀ i ∈ ([.mllNopDstRefused z f, .mllNopSrcRefused z f, .andNopDstRefused z f, .andNopSrcRefused z f,
        .orrNopDstRefused z f, .orrNopSrcRefused z f, .xorNopDstRefused z f, .xorNopSrcRefused z f,
        .bplNopZeroRefused z, .bplNopMinusRefused z, .bmiNopZeroRefused z, .bmiNopMinusRefused z,
        .bzeNopZeroRefused z, .bzeNopMinusRefused z, .bnzNopZeroRefused z, .bnzNopMinusRefused z] : List Instr),
      exec i s = .refused .nopWithSideEffect

/-- EIN, word 0x5CFA, sets the interrupt enable and DIN, word 0x7CFA, clears it, above user mode; nothing else changes
(45_system_ops.md R267, R268). That hypervisor mode may execute them too is presumed: notes/assumptions/20.md. -/
def Obligations.InterruptEnable : Prop :=
  decodeWord 0x5CFA = .ein ∧ decodeWord 0x7CFA = .din ∧
  ∀ s : State, s.mode ≠ .user →
    exec .ein s = .next { s with interruptEnable := true } ∧ exec .din s = .next { s with interruptEnable := false }

/-- SNP, word 0x1CFA, changes nothing above user mode; HNP, 0x1EFA, changes nothing in hypervisor mode
(45_system_ops.md R265, R273). That SNP is a NOP in hypervisor mode too is presumed: notes/assumptions/20.md. -/
def Obligations.PrivilegedNops : Prop :=
  decodeWord 0x1CFA = .snp ∧ decodeWord 0x1EFA = .hnp ∧
  ∀ s : State, (s.mode ≠ .user → exec .snp s = .next s) ∧ (s.mode = .hypervisor → exec .hnp s = .next s)

/-- SUP, word 0x3CFA, and SSP, word 0x3EFA, take the d64 that follows into the page-table pointer of their level and pass it
(45_system_ops.md R266, R274). That SUP is executed, where R266 also allows a refusal, is the model's choice
(notes/assumptions/15.md), and that hypervisor mode may execute it is presumed (notes/assumptions/20.md). -/
def Obligations.PageTablePointers : Prop :=
  decodeWord 0x3CFA = .sup ∧ decodeWord 0x3EFA = .ssp ∧
  ∀ s : State, s.streamable 4 →
    (s.mode ≠ .user → exec .sup s = .next { s with userPt := s.valueAt s.pc 4, pc := s.pc + 4 }) ∧
    (s.mode = .hypervisor → exec .ssp s = .next { s with superPt := s.valueAt s.pc 4, pc := s.pc + 4 })

/-- DVM, word 0x7EFA: in hypervisor mode it clears the translation enable, and so changes nothing where translation is
off (45_system_ops.md R276). -/
def Obligations.DvmResult : Prop :=
  decodeWord 0x7EFA = .dvm ∧
  ∀ s : State, s.mode = .hypervisor →
    exec .dvm s = .next { s with vmEnable := false } ∧ (s.vmEnable = false → exec .dvm s = .next s)

/-- A privileged instruction in too low a mode is refused: the (P) instructions in user mode, the (H) instructions below
hypervisor mode (60_exceptions.md R300, R301). -/
def Obligations.PrivilegeRefused : Prop :=
  ∀ (s : State) (m : Code3) (o : Operand),
    (s.mode = .user →
      ∀ i ∈ ([.hpr m, .atTrp m o, .snp, .sup, .ein, .din, .wti, .cls, .rss, .sil] : List Instr),
        exec i s = .refused .privilege) ∧
    (s.mode ≠ .hypervisor →
      ∀ i ∈ ([.atHvr m o, .atCiv m o, .hnp, .ssp, .evm, .dvm, .cli, .clh, .rsh, .hil] : List Instr),
        exec i s = .refused .privilege)

/-- BRK, TRP, HPR, SIL and HIL end the run with their fault outcome in the modes that may execute them
(45_system_ops.md R233 to R235, R272, R280; 60_exceptions.md R304). -/
def Obligations.TrapOutcomes : Prop :=
  ∀ (s : State) (m : Code3),
    exec (.brk m) s = .fault (.trap .brk m) ∧ exec (.trp m) s = .fault (.trap .trp m) ∧
    (s.mode ≠ .user → exec (.hpr m) s = .fault (.trap .hpr m) ∧ exec .sil s = .fault (.illegal .sil)) ∧
    (s.mode = .hypervisor → exec .hil s = .fault (.illegal .hil))

/-- The instructions that the spec names without a meaning are refused under its reasons: CFR proper, SLT, SRT, ADU, SBU,
NOT, CPL, WTO, the WTO group, COM, @COM, CIV, @BRK and the reserved spaces, in every mode (44_cfr.md, 45_system_ops.md,
30_encoding.md R103). -/
def Obligations.UnspecifiedRefused : Prop :=
  ∀ (z : Size) (dst src : Operand) (n : BitVec 5) (m : Code3) (x y : Special) (s : State),
    exec (.cfr z dst src) s = .refused .cfrUnspecified ∧ exec (.slt z dst) s = .refused .sltUnspecified ∧
    exec (.srt z dst) s = .refused .srtUnspecified ∧ exec (.adu z dst) s = .refused .aduUnspecified ∧
    exec (.sbu z dst) s = .refused .sbuUnspecified ∧ exec (.not z dst) s = .refused .notUnspecified ∧
    exec (.cpl z dst) s = .refused .cplUnspecified ∧ exec (.wto dst) s = .refused .wtoUnspecified ∧
    exec (.wtoGroup z dst) s = .refused .unassigned ∧ exec (.com n) s = .refused .com ∧
    exec (.atCom n src) s = .refused .com ∧ exec (.civ m) s = .refused .civUnspecified ∧
    exec (.atBrk m src) s = .refused .atFormUnspecified ∧ exec (.reserved m) s = .refused .reserved ∧
    exec (.systemDesign m) s = .refused .reserved ∧ exec (.reservedExtension m x y) s = .refused .reserved ∧
    exec (.reservedVectorPrefix m x y) s = .refused .reserved

/-- The privileged instructions that the spec names without a meaning are refused under its reasons in the modes that may
execute them (45_system_ops.md R242 to R244, R269 to R271, R275 to R279). -/
def Obligations.PrivilegedUnspecifiedRefused : Prop :=
  ∀ (m : Code3) (src : Operand) (s : State),
    (s.mode ≠ .user →
      exec (.atTrp m src) s = .refused .atFormUnspecified ∧ exec .wti s = .refused .wti ∧
      exec .cls s = .refused .trapReturnUnspecified ∧ exec .rss s = .refused .resetUnspecified) ∧
    (s.mode = .hypervisor →
      exec (.atHvr m src) s = .refused .atFormUnspecified ∧ exec (.atCiv m src) s = .refused .atFormUnspecified ∧
      exec .evm s = .refused .translationUnspecified ∧ exec .cli s = .refused .interruptsUnspecified ∧
      exec .clh s = .refused .trapReturnUnspecified ∧ exec .rsh s = .refused .resetUnspecified)
end

