-- ==== Sys2Proof/Laws/State.lean ====
section
/-! SUPPORT. One lemma per field per named update of State, each true by rfl; then the register accessors over the
updates. -/

namespace Sys2Proof.Machine

section Fields

variable (s : State)

@[simp] theorem State.setA_a (r : RegNum) (v : Quad) : (s.setA r v).a = s.a.set r v := rfl
@[simp] theorem State.setA_d (r : RegNum) (v : Quad) : (s.setA r v).d = s.d := rfl
@[simp] theorem State.setA_pc (r : RegNum) (v : Quad) : (s.setA r v).pc = s.pc := rfl
@[simp] theorem State.setA_ip (r : RegNum) (v : Quad) : (s.setA r v).ip = s.ip := rfl
@[simp] theorem State.setA_sp (r : RegNum) (v : Quad) : (s.setA r v).sp = s.sp := rfl
@[simp] theorem State.setA_rp (r : RegNum) (v : Quad) : (s.setA r v).rp = s.rp := rfl
@[simp] theorem State.setA_mode (r : RegNum) (v : Quad) : (s.setA r v).mode = s.mode := rfl
@[simp] theorem State.setA_interruptEnable (r : RegNum) (v : Quad) : (s.setA r v).interruptEnable = s.interruptEnable := rfl
@[simp] theorem State.setA_interruptPending (r : RegNum) (v : Quad) : (s.setA r v).interruptPending = s.interruptPending := rfl
@[simp] theorem State.setA_vmEnable (r : RegNum) (v : Quad) : (s.setA r v).vmEnable = s.vmEnable := rfl
@[simp] theorem State.setA_userPt (r : RegNum) (v : Quad) : (s.setA r v).userPt = s.userPt := rfl
@[simp] theorem State.setA_superPt (r : RegNum) (v : Quad) : (s.setA r v).superPt = s.superPt := rfl
@[simp] theorem State.setA_brkVector (r : RegNum) (v : Quad) : (s.setA r v).brkVector = s.brkVector := rfl
@[simp] theorem State.setA_trpVector (r : RegNum) (v : Quad) : (s.setA r v).trpVector = s.trpVector := rfl
@[simp] theorem State.setA_hvrVector (r : RegNum) (v : Quad) : (s.setA r v).hvrVector = s.hvrVector := rfl
@[simp] theorem State.setA_civVector (r : RegNum) (v : Quad) : (s.setA r v).civVector = s.civVector := rfl
@[simp] theorem State.setA_comTable (r : RegNum) (v : Quad) : (s.setA r v).comTable = s.comTable := rfl
@[simp] theorem State.setA_profile (r : RegNum) (v : Quad) : (s.setA r v).profile = s.profile := rfl
@[simp] theorem State.setA_special (r : RegNum) (v : Quad) : (s.setA r v).special = s.special := rfl
@[simp] theorem State.setA_wtoTarget (r : RegNum) (v : Quad) : (s.setA r v).wtoTarget = s.wtoTarget := rfl
@[simp] theorem State.setA_comPosition (r : RegNum) (v : Quad) : (s.setA r v).comPosition = s.comPosition := rfl
@[simp] theorem State.setA_memory (r : RegNum) (v : Quad) : (s.setA r v).memory = s.memory := rfl
@[simp] theorem State.setA_platform (r : RegNum) (v : Quad) : (s.setA r v).platform = s.platform := rfl
@[simp] theorem State.setA_stored (r : RegNum) (v : Quad) : (s.setA r v).stored = s.stored := rfl

@[simp] theorem State.setD_a (r : RegNum) (v : Quad) : (s.setD r v).a = s.a := rfl
@[simp] theorem State.setD_d (r : RegNum) (v : Quad) : (s.setD r v).d = s.d.set r v := rfl
@[simp] theorem State.setD_pc (r : RegNum) (v : Quad) : (s.setD r v).pc = s.pc := rfl
@[simp] theorem State.setD_ip (r : RegNum) (v : Quad) : (s.setD r v).ip = s.ip := rfl
@[simp] theorem State.setD_sp (r : RegNum) (v : Quad) : (s.setD r v).sp = s.sp := rfl
@[simp] theorem State.setD_rp (r : RegNum) (v : Quad) : (s.setD r v).rp = s.rp := rfl
@[simp] theorem State.setD_mode (r : RegNum) (v : Quad) : (s.setD r v).mode = s.mode := rfl
@[simp] theorem State.setD_interruptEnable (r : RegNum) (v : Quad) : (s.setD r v).interruptEnable = s.interruptEnable := rfl
@[simp] theorem State.setD_interruptPending (r : RegNum) (v : Quad) : (s.setD r v).interruptPending = s.interruptPending := rfl
@[simp] theorem State.setD_vmEnable (r : RegNum) (v : Quad) : (s.setD r v).vmEnable = s.vmEnable := rfl
@[simp] theorem State.setD_userPt (r : RegNum) (v : Quad) : (s.setD r v).userPt = s.userPt := rfl
@[simp] theorem State.setD_superPt (r : RegNum) (v : Quad) : (s.setD r v).superPt = s.superPt := rfl
@[simp] theorem State.setD_brkVector (r : RegNum) (v : Quad) : (s.setD r v).brkVector = s.brkVector := rfl
@[simp] theorem State.setD_trpVector (r : RegNum) (v : Quad) : (s.setD r v).trpVector = s.trpVector := rfl
@[simp] theorem State.setD_hvrVector (r : RegNum) (v : Quad) : (s.setD r v).hvrVector = s.hvrVector := rfl
@[simp] theorem State.setD_civVector (r : RegNum) (v : Quad) : (s.setD r v).civVector = s.civVector := rfl
@[simp] theorem State.setD_comTable (r : RegNum) (v : Quad) : (s.setD r v).comTable = s.comTable := rfl
@[simp] theorem State.setD_profile (r : RegNum) (v : Quad) : (s.setD r v).profile = s.profile := rfl
@[simp] theorem State.setD_special (r : RegNum) (v : Quad) : (s.setD r v).special = s.special := rfl
@[simp] theorem State.setD_wtoTarget (r : RegNum) (v : Quad) : (s.setD r v).wtoTarget = s.wtoTarget := rfl
@[simp] theorem State.setD_comPosition (r : RegNum) (v : Quad) : (s.setD r v).comPosition = s.comPosition := rfl
@[simp] theorem State.setD_memory (r : RegNum) (v : Quad) : (s.setD r v).memory = s.memory := rfl
@[simp] theorem State.setD_platform (r : RegNum) (v : Quad) : (s.setD r v).platform = s.platform := rfl
@[simp] theorem State.setD_stored (r : RegNum) (v : Quad) : (s.setD r v).stored = s.stored := rfl

@[simp] theorem State.setPc_a (v : Quad) : (s.setPc v).a = s.a := rfl
@[simp] theorem State.setPc_d (v : Quad) : (s.setPc v).d = s.d := rfl
@[simp] theorem State.setPc_pc (v : Quad) : (s.setPc v).pc = v := rfl
@[simp] theorem State.setPc_ip (v : Quad) : (s.setPc v).ip = s.ip := rfl
@[simp] theorem State.setPc_sp (v : Quad) : (s.setPc v).sp = s.sp := rfl
@[simp] theorem State.setPc_rp (v : Quad) : (s.setPc v).rp = s.rp := rfl
@[simp] theorem State.setPc_mode (v : Quad) : (s.setPc v).mode = s.mode := rfl
@[simp] theorem State.setPc_interruptEnable (v : Quad) : (s.setPc v).interruptEnable = s.interruptEnable := rfl
@[simp] theorem State.setPc_interruptPending (v : Quad) : (s.setPc v).interruptPending = s.interruptPending := rfl
@[simp] theorem State.setPc_vmEnable (v : Quad) : (s.setPc v).vmEnable = s.vmEnable := rfl
@[simp] theorem State.setPc_userPt (v : Quad) : (s.setPc v).userPt = s.userPt := rfl
@[simp] theorem State.setPc_superPt (v : Quad) : (s.setPc v).superPt = s.superPt := rfl
@[simp] theorem State.setPc_brkVector (v : Quad) : (s.setPc v).brkVector = s.brkVector := rfl
@[simp] theorem State.setPc_trpVector (v : Quad) : (s.setPc v).trpVector = s.trpVector := rfl
@[simp] theorem State.setPc_hvrVector (v : Quad) : (s.setPc v).hvrVector = s.hvrVector := rfl
@[simp] theorem State.setPc_civVector (v : Quad) : (s.setPc v).civVector = s.civVector := rfl
@[simp] theorem State.setPc_comTable (v : Quad) : (s.setPc v).comTable = s.comTable := rfl
@[simp] theorem State.setPc_profile (v : Quad) : (s.setPc v).profile = s.profile := rfl
@[simp] theorem State.setPc_special (v : Quad) : (s.setPc v).special = s.special := rfl
@[simp] theorem State.setPc_wtoTarget (v : Quad) : (s.setPc v).wtoTarget = s.wtoTarget := rfl
@[simp] theorem State.setPc_comPosition (v : Quad) : (s.setPc v).comPosition = s.comPosition := rfl
@[simp] theorem State.setPc_memory (v : Quad) : (s.setPc v).memory = s.memory := rfl
@[simp] theorem State.setPc_platform (v : Quad) : (s.setPc v).platform = s.platform := rfl
@[simp] theorem State.setPc_stored (v : Quad) : (s.setPc v).stored = s.stored := rfl

@[simp] theorem State.setIp_a (v : Quad) : (s.setIp v).a = s.a := rfl
@[simp] theorem State.setIp_d (v : Quad) : (s.setIp v).d = s.d := rfl
@[simp] theorem State.setIp_pc (v : Quad) : (s.setIp v).pc = s.pc := rfl
@[simp] theorem State.setIp_ip (v : Quad) : (s.setIp v).ip = v := rfl
@[simp] theorem State.setIp_sp (v : Quad) : (s.setIp v).sp = s.sp := rfl
@[simp] theorem State.setIp_rp (v : Quad) : (s.setIp v).rp = s.rp := rfl
@[simp] theorem State.setIp_mode (v : Quad) : (s.setIp v).mode = s.mode := rfl
@[simp] theorem State.setIp_interruptEnable (v : Quad) : (s.setIp v).interruptEnable = s.interruptEnable := rfl
@[simp] theorem State.setIp_interruptPending (v : Quad) : (s.setIp v).interruptPending = s.interruptPending := rfl
@[simp] theorem State.setIp_vmEnable (v : Quad) : (s.setIp v).vmEnable = s.vmEnable := rfl
@[simp] theorem State.setIp_userPt (v : Quad) : (s.setIp v).userPt = s.userPt := rfl
@[simp] theorem State.setIp_superPt (v : Quad) : (s.setIp v).superPt = s.superPt := rfl
@[simp] theorem State.setIp_brkVector (v : Quad) : (s.setIp v).brkVector = s.brkVector := rfl
@[simp] theorem State.setIp_trpVector (v : Quad) : (s.setIp v).trpVector = s.trpVector := rfl
@[simp] theorem State.setIp_hvrVector (v : Quad) : (s.setIp v).hvrVector = s.hvrVector := rfl
@[simp] theorem State.setIp_civVector (v : Quad) : (s.setIp v).civVector = s.civVector := rfl
@[simp] theorem State.setIp_comTable (v : Quad) : (s.setIp v).comTable = s.comTable := rfl
@[simp] theorem State.setIp_profile (v : Quad) : (s.setIp v).profile = s.profile := rfl
@[simp] theorem State.setIp_special (v : Quad) : (s.setIp v).special = s.special := rfl
@[simp] theorem State.setIp_wtoTarget (v : Quad) : (s.setIp v).wtoTarget = s.wtoTarget := rfl
@[simp] theorem State.setIp_comPosition (v : Quad) : (s.setIp v).comPosition = s.comPosition := rfl
@[simp] theorem State.setIp_memory (v : Quad) : (s.setIp v).memory = s.memory := rfl
@[simp] theorem State.setIp_platform (v : Quad) : (s.setIp v).platform = s.platform := rfl
@[simp] theorem State.setIp_stored (v : Quad) : (s.setIp v).stored = s.stored := rfl

@[simp] theorem State.setSp_a (v : Quad) : (s.setSp v).a = s.a := rfl
@[simp] theorem State.setSp_d (v : Quad) : (s.setSp v).d = s.d := rfl
@[simp] theorem State.setSp_pc (v : Quad) : (s.setSp v).pc = s.pc := rfl
@[simp] theorem State.setSp_ip (v : Quad) : (s.setSp v).ip = s.ip := rfl
@[simp] theorem State.setSp_sp (v : Quad) : (s.setSp v).sp = v := rfl
@[simp] theorem State.setSp_rp (v : Quad) : (s.setSp v).rp = s.rp := rfl
@[simp] theorem State.setSp_mode (v : Quad) : (s.setSp v).mode = s.mode := rfl
@[simp] theorem State.setSp_interruptEnable (v : Quad) : (s.setSp v).interruptEnable = s.interruptEnable := rfl
@[simp] theorem State.setSp_interruptPending (v : Quad) : (s.setSp v).interruptPending = s.interruptPending := rfl
@[simp] theorem State.setSp_vmEnable (v : Quad) : (s.setSp v).vmEnable = s.vmEnable := rfl
@[simp] theorem State.setSp_userPt (v : Quad) : (s.setSp v).userPt = s.userPt := rfl
@[simp] theorem State.setSp_superPt (v : Quad) : (s.setSp v).superPt = s.superPt := rfl
@[simp] theorem State.setSp_brkVector (v : Quad) : (s.setSp v).brkVector = s.brkVector := rfl
@[simp] theorem State.setSp_trpVector (v : Quad) : (s.setSp v).trpVector = s.trpVector := rfl
@[simp] theorem State.setSp_hvrVector (v : Quad) : (s.setSp v).hvrVector = s.hvrVector := rfl
@[simp] theorem State.setSp_civVector (v : Quad) : (s.setSp v).civVector = s.civVector := rfl
@[simp] theorem State.setSp_comTable (v : Quad) : (s.setSp v).comTable = s.comTable := rfl
@[simp] theorem State.setSp_profile (v : Quad) : (s.setSp v).profile = s.profile := rfl
@[simp] theorem State.setSp_special (v : Quad) : (s.setSp v).special = s.special := rfl
@[simp] theorem State.setSp_wtoTarget (v : Quad) : (s.setSp v).wtoTarget = s.wtoTarget := rfl
@[simp] theorem State.setSp_comPosition (v : Quad) : (s.setSp v).comPosition = s.comPosition := rfl
@[simp] theorem State.setSp_memory (v : Quad) : (s.setSp v).memory = s.memory := rfl
@[simp] theorem State.setSp_platform (v : Quad) : (s.setSp v).platform = s.platform := rfl
@[simp] theorem State.setSp_stored (v : Quad) : (s.setSp v).stored = s.stored := rfl

@[simp] theorem State.setRp_a (v : Quad) : (s.setRp v).a = s.a := rfl
@[simp] theorem State.setRp_d (v : Quad) : (s.setRp v).d = s.d := rfl
@[simp] theorem State.setRp_pc (v : Quad) : (s.setRp v).pc = s.pc := rfl
@[simp] theorem State.setRp_ip (v : Quad) : (s.setRp v).ip = s.ip := rfl
@[simp] theorem State.setRp_sp (v : Quad) : (s.setRp v).sp = s.sp := rfl
@[simp] theorem State.setRp_rp (v : Quad) : (s.setRp v).rp = v := rfl
@[simp] theorem State.setRp_mode (v : Quad) : (s.setRp v).mode = s.mode := rfl
@[simp] theorem State.setRp_interruptEnable (v : Quad) : (s.setRp v).interruptEnable = s.interruptEnable := rfl
@[simp] theorem State.setRp_interruptPending (v : Quad) : (s.setRp v).interruptPending = s.interruptPending := rfl
@[simp] theorem State.setRp_vmEnable (v : Quad) : (s.setRp v).vmEnable = s.vmEnable := rfl
@[simp] theorem State.setRp_userPt (v : Quad) : (s.setRp v).userPt = s.userPt := rfl
@[simp] theorem State.setRp_superPt (v : Quad) : (s.setRp v).superPt = s.superPt := rfl
@[simp] theorem State.setRp_brkVector (v : Quad) : (s.setRp v).brkVector = s.brkVector := rfl
@[simp] theorem State.setRp_trpVector (v : Quad) : (s.setRp v).trpVector = s.trpVector := rfl
@[simp] theorem State.setRp_hvrVector (v : Quad) : (s.setRp v).hvrVector = s.hvrVector := rfl
@[simp] theorem State.setRp_civVector (v : Quad) : (s.setRp v).civVector = s.civVector := rfl
@[simp] theorem State.setRp_comTable (v : Quad) : (s.setRp v).comTable = s.comTable := rfl
@[simp] theorem State.setRp_profile (v : Quad) : (s.setRp v).profile = s.profile := rfl
@[simp] theorem State.setRp_special (v : Quad) : (s.setRp v).special = s.special := rfl
@[simp] theorem State.setRp_wtoTarget (v : Quad) : (s.setRp v).wtoTarget = s.wtoTarget := rfl
@[simp] theorem State.setRp_comPosition (v : Quad) : (s.setRp v).comPosition = s.comPosition := rfl
@[simp] theorem State.setRp_memory (v : Quad) : (s.setRp v).memory = s.memory := rfl
@[simp] theorem State.setRp_platform (v : Quad) : (s.setRp v).platform = s.platform := rfl
@[simp] theorem State.setRp_stored (v : Quad) : (s.setRp v).stored = s.stored := rfl

@[simp] theorem State.setInterruptEnable_a (v : Bool) : (s.setInterruptEnable v).a = s.a := rfl
@[simp] theorem State.setInterruptEnable_d (v : Bool) : (s.setInterruptEnable v).d = s.d := rfl
@[simp] theorem State.setInterruptEnable_pc (v : Bool) : (s.setInterruptEnable v).pc = s.pc := rfl
@[simp] theorem State.setInterruptEnable_ip (v : Bool) : (s.setInterruptEnable v).ip = s.ip := rfl
@[simp] theorem State.setInterruptEnable_sp (v : Bool) : (s.setInterruptEnable v).sp = s.sp := rfl
@[simp] theorem State.setInterruptEnable_rp (v : Bool) : (s.setInterruptEnable v).rp = s.rp := rfl
@[simp] theorem State.setInterruptEnable_mode (v : Bool) : (s.setInterruptEnable v).mode = s.mode := rfl
@[simp] theorem State.setInterruptEnable_interruptEnable (v : Bool) : (s.setInterruptEnable v).interruptEnable = v := rfl
@[simp] theorem State.setInterruptEnable_interruptPending (v : Bool) : (s.setInterruptEnable v).interruptPending = s.interruptPending := rfl
@[simp] theorem State.setInterruptEnable_vmEnable (v : Bool) : (s.setInterruptEnable v).vmEnable = s.vmEnable := rfl
@[simp] theorem State.setInterruptEnable_userPt (v : Bool) : (s.setInterruptEnable v).userPt = s.userPt := rfl
@[simp] theorem State.setInterruptEnable_superPt (v : Bool) : (s.setInterruptEnable v).superPt = s.superPt := rfl
@[simp] theorem State.setInterruptEnable_brkVector (v : Bool) : (s.setInterruptEnable v).brkVector = s.brkVector := rfl
@[simp] theorem State.setInterruptEnable_trpVector (v : Bool) : (s.setInterruptEnable v).trpVector = s.trpVector := rfl
@[simp] theorem State.setInterruptEnable_hvrVector (v : Bool) : (s.setInterruptEnable v).hvrVector = s.hvrVector := rfl
@[simp] theorem State.setInterruptEnable_civVector (v : Bool) : (s.setInterruptEnable v).civVector = s.civVector := rfl
@[simp] theorem State.setInterruptEnable_comTable (v : Bool) : (s.setInterruptEnable v).comTable = s.comTable := rfl
@[simp] theorem State.setInterruptEnable_profile (v : Bool) : (s.setInterruptEnable v).profile = s.profile := rfl
@[simp] theorem State.setInterruptEnable_special (v : Bool) : (s.setInterruptEnable v).special = s.special := rfl
@[simp] theorem State.setInterruptEnable_wtoTarget (v : Bool) : (s.setInterruptEnable v).wtoTarget = s.wtoTarget := rfl
@[simp] theorem State.setInterruptEnable_comPosition (v : Bool) : (s.setInterruptEnable v).comPosition = s.comPosition := rfl
@[simp] theorem State.setInterruptEnable_memory (v : Bool) : (s.setInterruptEnable v).memory = s.memory := rfl
@[simp] theorem State.setInterruptEnable_platform (v : Bool) : (s.setInterruptEnable v).platform = s.platform := rfl
@[simp] theorem State.setInterruptEnable_stored (v : Bool) : (s.setInterruptEnable v).stored = s.stored := rfl

@[simp] theorem State.setVmEnable_a (v : Bool) : (s.setVmEnable v).a = s.a := rfl
@[simp] theorem State.setVmEnable_d (v : Bool) : (s.setVmEnable v).d = s.d := rfl
@[simp] theorem State.setVmEnable_pc (v : Bool) : (s.setVmEnable v).pc = s.pc := rfl
@[simp] theorem State.setVmEnable_ip (v : Bool) : (s.setVmEnable v).ip = s.ip := rfl
@[simp] theorem State.setVmEnable_sp (v : Bool) : (s.setVmEnable v).sp = s.sp := rfl
@[simp] theorem State.setVmEnable_rp (v : Bool) : (s.setVmEnable v).rp = s.rp := rfl
@[simp] theorem State.setVmEnable_mode (v : Bool) : (s.setVmEnable v).mode = s.mode := rfl
@[simp] theorem State.setVmEnable_interruptEnable (v : Bool) : (s.setVmEnable v).interruptEnable = s.interruptEnable := rfl
@[simp] theorem State.setVmEnable_interruptPending (v : Bool) : (s.setVmEnable v).interruptPending = s.interruptPending := rfl
@[simp] theorem State.setVmEnable_vmEnable (v : Bool) : (s.setVmEnable v).vmEnable = v := rfl
@[simp] theorem State.setVmEnable_userPt (v : Bool) : (s.setVmEnable v).userPt = s.userPt := rfl
@[simp] theorem State.setVmEnable_superPt (v : Bool) : (s.setVmEnable v).superPt = s.superPt := rfl
@[simp] theorem State.setVmEnable_brkVector (v : Bool) : (s.setVmEnable v).brkVector = s.brkVector := rfl
@[simp] theorem State.setVmEnable_trpVector (v : Bool) : (s.setVmEnable v).trpVector = s.trpVector := rfl
@[simp] theorem State.setVmEnable_hvrVector (v : Bool) : (s.setVmEnable v).hvrVector = s.hvrVector := rfl
@[simp] theorem State.setVmEnable_civVector (v : Bool) : (s.setVmEnable v).civVector = s.civVector := rfl
@[simp] theorem State.setVmEnable_comTable (v : Bool) : (s.setVmEnable v).comTable = s.comTable := rfl
@[simp] theorem State.setVmEnable_profile (v : Bool) : (s.setVmEnable v).profile = s.profile := rfl
@[simp] theorem State.setVmEnable_special (v : Bool) : (s.setVmEnable v).special = s.special := rfl
@[simp] theorem State.setVmEnable_wtoTarget (v : Bool) : (s.setVmEnable v).wtoTarget = s.wtoTarget := rfl
@[simp] theorem State.setVmEnable_comPosition (v : Bool) : (s.setVmEnable v).comPosition = s.comPosition := rfl
@[simp] theorem State.setVmEnable_memory (v : Bool) : (s.setVmEnable v).memory = s.memory := rfl
@[simp] theorem State.setVmEnable_platform (v : Bool) : (s.setVmEnable v).platform = s.platform := rfl
@[simp] theorem State.setVmEnable_stored (v : Bool) : (s.setVmEnable v).stored = s.stored := rfl

@[simp] theorem State.setUserPt_a (v : Quad) : (s.setUserPt v).a = s.a := rfl
@[simp] theorem State.setUserPt_d (v : Quad) : (s.setUserPt v).d = s.d := rfl
@[simp] theorem State.setUserPt_pc (v : Quad) : (s.setUserPt v).pc = s.pc := rfl
@[simp] theorem State.setUserPt_ip (v : Quad) : (s.setUserPt v).ip = s.ip := rfl
@[simp] theorem State.setUserPt_sp (v : Quad) : (s.setUserPt v).sp = s.sp := rfl
@[simp] theorem State.setUserPt_rp (v : Quad) : (s.setUserPt v).rp = s.rp := rfl
@[simp] theorem State.setUserPt_mode (v : Quad) : (s.setUserPt v).mode = s.mode := rfl
@[simp] theorem State.setUserPt_interruptEnable (v : Quad) : (s.setUserPt v).interruptEnable = s.interruptEnable := rfl
@[simp] theorem State.setUserPt_interruptPending (v : Quad) : (s.setUserPt v).interruptPending = s.interruptPending := rfl
@[simp] theorem State.setUserPt_vmEnable (v : Quad) : (s.setUserPt v).vmEnable = s.vmEnable := rfl
@[simp] theorem State.setUserPt_userPt (v : Quad) : (s.setUserPt v).userPt = v := rfl
@[simp] theorem State.setUserPt_superPt (v : Quad) : (s.setUserPt v).superPt = s.superPt := rfl
@[simp] theorem State.setUserPt_brkVector (v : Quad) : (s.setUserPt v).brkVector = s.brkVector := rfl
@[simp] theorem State.setUserPt_trpVector (v : Quad) : (s.setUserPt v).trpVector = s.trpVector := rfl
@[simp] theorem State.setUserPt_hvrVector (v : Quad) : (s.setUserPt v).hvrVector = s.hvrVector := rfl
@[simp] theorem State.setUserPt_civVector (v : Quad) : (s.setUserPt v).civVector = s.civVector := rfl
@[simp] theorem State.setUserPt_comTable (v : Quad) : (s.setUserPt v).comTable = s.comTable := rfl
@[simp] theorem State.setUserPt_profile (v : Quad) : (s.setUserPt v).profile = s.profile := rfl
@[simp] theorem State.setUserPt_special (v : Quad) : (s.setUserPt v).special = s.special := rfl
@[simp] theorem State.setUserPt_wtoTarget (v : Quad) : (s.setUserPt v).wtoTarget = s.wtoTarget := rfl
@[simp] theorem State.setUserPt_comPosition (v : Quad) : (s.setUserPt v).comPosition = s.comPosition := rfl
@[simp] theorem State.setUserPt_memory (v : Quad) : (s.setUserPt v).memory = s.memory := rfl
@[simp] theorem State.setUserPt_platform (v : Quad) : (s.setUserPt v).platform = s.platform := rfl
@[simp] theorem State.setUserPt_stored (v : Quad) : (s.setUserPt v).stored = s.stored := rfl

@[simp] theorem State.setSuperPt_a (v : Quad) : (s.setSuperPt v).a = s.a := rfl
@[simp] theorem State.setSuperPt_d (v : Quad) : (s.setSuperPt v).d = s.d := rfl
@[simp] theorem State.setSuperPt_pc (v : Quad) : (s.setSuperPt v).pc = s.pc := rfl
@[simp] theorem State.setSuperPt_ip (v : Quad) : (s.setSuperPt v).ip = s.ip := rfl
@[simp] theorem State.setSuperPt_sp (v : Quad) : (s.setSuperPt v).sp = s.sp := rfl
@[simp] theorem State.setSuperPt_rp (v : Quad) : (s.setSuperPt v).rp = s.rp := rfl
@[simp] theorem State.setSuperPt_mode (v : Quad) : (s.setSuperPt v).mode = s.mode := rfl
@[simp] theorem State.setSuperPt_interruptEnable (v : Quad) : (s.setSuperPt v).interruptEnable = s.interruptEnable := rfl
@[simp] theorem State.setSuperPt_interruptPending (v : Quad) : (s.setSuperPt v).interruptPending = s.interruptPending := rfl
@[simp] theorem State.setSuperPt_vmEnable (v : Quad) : (s.setSuperPt v).vmEnable = s.vmEnable := rfl
@[simp] theorem State.setSuperPt_userPt (v : Quad) : (s.setSuperPt v).userPt = s.userPt := rfl
@[simp] theorem State.setSuperPt_superPt (v : Quad) : (s.setSuperPt v).superPt = v := rfl
@[simp] theorem State.setSuperPt_brkVector (v : Quad) : (s.setSuperPt v).brkVector = s.brkVector := rfl
@[simp] theorem State.setSuperPt_trpVector (v : Quad) : (s.setSuperPt v).trpVector = s.trpVector := rfl
@[simp] theorem State.setSuperPt_hvrVector (v : Quad) : (s.setSuperPt v).hvrVector = s.hvrVector := rfl
@[simp] theorem State.setSuperPt_civVector (v : Quad) : (s.setSuperPt v).civVector = s.civVector := rfl
@[simp] theorem State.setSuperPt_comTable (v : Quad) : (s.setSuperPt v).comTable = s.comTable := rfl
@[simp] theorem State.setSuperPt_profile (v : Quad) : (s.setSuperPt v).profile = s.profile := rfl
@[simp] theorem State.setSuperPt_special (v : Quad) : (s.setSuperPt v).special = s.special := rfl
@[simp] theorem State.setSuperPt_wtoTarget (v : Quad) : (s.setSuperPt v).wtoTarget = s.wtoTarget := rfl
@[simp] theorem State.setSuperPt_comPosition (v : Quad) : (s.setSuperPt v).comPosition = s.comPosition := rfl
@[simp] theorem State.setSuperPt_memory (v : Quad) : (s.setSuperPt v).memory = s.memory := rfl
@[simp] theorem State.setSuperPt_platform (v : Quad) : (s.setSuperPt v).platform = s.platform := rfl
@[simp] theorem State.setSuperPt_stored (v : Quad) : (s.setSuperPt v).stored = s.stored := rfl

@[simp] theorem State.storeWord_a (x : Quad) (w : Word) : (s.storeWord x w).a = s.a := rfl
@[simp] theorem State.storeWord_d (x : Quad) (w : Word) : (s.storeWord x w).d = s.d := rfl
@[simp] theorem State.storeWord_pc (x : Quad) (w : Word) : (s.storeWord x w).pc = s.pc := rfl
@[simp] theorem State.storeWord_ip (x : Quad) (w : Word) : (s.storeWord x w).ip = s.ip := rfl
@[simp] theorem State.storeWord_sp (x : Quad) (w : Word) : (s.storeWord x w).sp = s.sp := rfl
@[simp] theorem State.storeWord_rp (x : Quad) (w : Word) : (s.storeWord x w).rp = s.rp := rfl
@[simp] theorem State.storeWord_mode (x : Quad) (w : Word) : (s.storeWord x w).mode = s.mode := rfl
@[simp] theorem State.storeWord_interruptEnable (x : Quad) (w : Word) : (s.storeWord x w).interruptEnable = s.interruptEnable := rfl
@[simp] theorem State.storeWord_interruptPending (x : Quad) (w : Word) : (s.storeWord x w).interruptPending = s.interruptPending := rfl
@[simp] theorem State.storeWord_vmEnable (x : Quad) (w : Word) : (s.storeWord x w).vmEnable = s.vmEnable := rfl
@[simp] theorem State.storeWord_userPt (x : Quad) (w : Word) : (s.storeWord x w).userPt = s.userPt := rfl
@[simp] theorem State.storeWord_superPt (x : Quad) (w : Word) : (s.storeWord x w).superPt = s.superPt := rfl
@[simp] theorem State.storeWord_brkVector (x : Quad) (w : Word) : (s.storeWord x w).brkVector = s.brkVector := rfl
@[simp] theorem State.storeWord_trpVector (x : Quad) (w : Word) : (s.storeWord x w).trpVector = s.trpVector := rfl
@[simp] theorem State.storeWord_hvrVector (x : Quad) (w : Word) : (s.storeWord x w).hvrVector = s.hvrVector := rfl
@[simp] theorem State.storeWord_civVector (x : Quad) (w : Word) : (s.storeWord x w).civVector = s.civVector := rfl
@[simp] theorem State.storeWord_comTable (x : Quad) (w : Word) : (s.storeWord x w).comTable = s.comTable := rfl
@[simp] theorem State.storeWord_profile (x : Quad) (w : Word) : (s.storeWord x w).profile = s.profile := rfl
@[simp] theorem State.storeWord_special (x : Quad) (w : Word) : (s.storeWord x w).special = s.special := rfl
@[simp] theorem State.storeWord_wtoTarget (x : Quad) (w : Word) : (s.storeWord x w).wtoTarget = s.wtoTarget := rfl
@[simp] theorem State.storeWord_comPosition (x : Quad) (w : Word) : (s.storeWord x w).comPosition = s.comPosition := rfl
@[simp] theorem State.storeWord_memory (x : Quad) (w : Word) : (s.storeWord x w).memory = s.memory.putWord x w := rfl
@[simp] theorem State.storeWord_platform (x : Quad) (w : Word) : (s.storeWord x w).platform = s.platform := rfl
@[simp] theorem State.storeWord_stored (x : Quad) (w : Word) : (s.storeWord x w).stored = insertRising x.toNat s.stored := rfl

@[simp] theorem State.setSpecial_a (x : Special) (v : Quad) : (s.setSpecial x v).a = s.a := by cases x <;> rfl
@[simp] theorem State.setSpecial_d (x : Special) (v : Quad) : (s.setSpecial x v).d = s.d := by cases x <;> rfl
@[simp] theorem State.setSpecial_mode (x : Special) (v : Quad) : (s.setSpecial x v).mode = s.mode := by cases x <;> rfl
@[simp] theorem State.setSpecial_interruptEnable (x : Special) (v : Quad) : (s.setSpecial x v).interruptEnable = s.interruptEnable := by cases x <;> rfl
@[simp] theorem State.setSpecial_interruptPending (x : Special) (v : Quad) : (s.setSpecial x v).interruptPending = s.interruptPending := by cases x <;> rfl
@[simp] theorem State.setSpecial_vmEnable (x : Special) (v : Quad) : (s.setSpecial x v).vmEnable = s.vmEnable := by cases x <;> rfl
@[simp] theorem State.setSpecial_userPt (x : Special) (v : Quad) : (s.setSpecial x v).userPt = s.userPt := by cases x <;> rfl
@[simp] theorem State.setSpecial_superPt (x : Special) (v : Quad) : (s.setSpecial x v).superPt = s.superPt := by cases x <;> rfl
@[simp] theorem State.setSpecial_brkVector (x : Special) (v : Quad) : (s.setSpecial x v).brkVector = s.brkVector := by cases x <;> rfl
@[simp] theorem State.setSpecial_trpVector (x : Special) (v : Quad) : (s.setSpecial x v).trpVector = s.trpVector := by cases x <;> rfl
@[simp] theorem State.setSpecial_hvrVector (x : Special) (v : Quad) : (s.setSpecial x v).hvrVector = s.hvrVector := by cases x <;> rfl
@[simp] theorem State.setSpecial_civVector (x : Special) (v : Quad) : (s.setSpecial x v).civVector = s.civVector := by cases x <;> rfl
@[simp] theorem State.setSpecial_comTable (x : Special) (v : Quad) : (s.setSpecial x v).comTable = s.comTable := by cases x <;> rfl
@[simp] theorem State.setSpecial_profile (x : Special) (v : Quad) : (s.setSpecial x v).profile = s.profile := by cases x <;> rfl
@[simp] theorem State.setSpecial_special (x : Special) (v : Quad) : (s.setSpecial x v).special = s.special := by cases x <;> rfl
@[simp] theorem State.setSpecial_wtoTarget (x : Special) (v : Quad) : (s.setSpecial x v).wtoTarget = s.wtoTarget := by cases x <;> rfl
@[simp] theorem State.setSpecial_comPosition (x : Special) (v : Quad) : (s.setSpecial x v).comPosition = s.comPosition := by cases x <;> rfl
@[simp] theorem State.setSpecial_memory (x : Special) (v : Quad) : (s.setSpecial x v).memory = s.memory := by cases x <;> rfl
@[simp] theorem State.setSpecial_platform (x : Special) (v : Quad) : (s.setSpecial x v).platform = s.platform := by cases x <;> rfl
@[simp] theorem State.setSpecial_stored (x : Special) (v : Quad) : (s.setSpecial x v).stored = s.stored := by cases x <;> rfl

end Fields

section Accessors

variable (s : State)

@[simp] theorem State.getA_setA (r r' : RegNum) (v : Quad) :
    (s.setA r v).getA r' = if r' = r then v else s.getA r' := by
  unfold State.getA State.setA
  simp only [Fin.getElem_fin, Vector.getElem_set, Fin.ext_iff]
  split <;> split <;> first | rfl | omega

@[simp] theorem State.getD_setD (r r' : RegNum) (v : Quad) :
    (s.setD r v).getD r' = if r' = r then v else s.getD r' := by
  unfold State.getD State.setD
  simp only [Fin.getElem_fin, Vector.getElem_set, Fin.ext_iff]
  split <;> split <;> first | rfl | omega

@[simp] theorem State.getSpecial_setSpecial (x y : Special) (v : Quad) :
    (s.setSpecial x v).getSpecial y = if y = x then v else s.getSpecial y := by
  cases x <;> cases y <;> rfl

@[simp] theorem State.getD_setA (r : RegNum) (v : Quad) (q : RegNum) : (s.setA r v).getD q = s.getD q := rfl
@[simp] theorem State.getSpecial_setA (r : RegNum) (v : Quad) (y : Special) : (s.setA r v).getSpecial y = s.getSpecial y := by cases y <;> rfl
@[simp] theorem State.mapped_setA (r : RegNum) (v : Quad) (y : Quad) : (s.setA r v).mapped y = s.mapped y := rfl
@[simp] theorem State.isStored_setA (r : RegNum) (v : Quad) (y : Quad) : (s.setA r v).isStored y = s.isStored y := rfl
@[simp] theorem State.getA_setD (r : RegNum) (v : Quad) (q : RegNum) : (s.setD r v).getA q = s.getA q := rfl
@[simp] theorem State.getSpecial_setD (r : RegNum) (v : Quad) (y : Special) : (s.setD r v).getSpecial y = s.getSpecial y := by cases y <;> rfl
@[simp] theorem State.mapped_setD (r : RegNum) (v : Quad) (y : Quad) : (s.setD r v).mapped y = s.mapped y := rfl
@[simp] theorem State.isStored_setD (r : RegNum) (v : Quad) (y : Quad) : (s.setD r v).isStored y = s.isStored y := rfl
@[simp] theorem State.getA_setPc (v : Quad) (q : RegNum) : (s.setPc v).getA q = s.getA q := rfl
@[simp] theorem State.getD_setPc (v : Quad) (q : RegNum) : (s.setPc v).getD q = s.getD q := rfl
@[simp] theorem State.mapped_setPc (v : Quad) (y : Quad) : (s.setPc v).mapped y = s.mapped y := rfl
@[simp] theorem State.isStored_setPc (v : Quad) (y : Quad) : (s.setPc v).isStored y = s.isStored y := rfl
@[simp] theorem State.getA_setIp (v : Quad) (q : RegNum) : (s.setIp v).getA q = s.getA q := rfl
@[simp] theorem State.getD_setIp (v : Quad) (q : RegNum) : (s.setIp v).getD q = s.getD q := rfl
@[simp] theorem State.mapped_setIp (v : Quad) (y : Quad) : (s.setIp v).mapped y = s.mapped y := rfl
@[simp] theorem State.isStored_setIp (v : Quad) (y : Quad) : (s.setIp v).isStored y = s.isStored y := rfl
@[simp] theorem State.getA_setSp (v : Quad) (q : RegNum) : (s.setSp v).getA q = s.getA q := rfl
@[simp] theorem State.getD_setSp (v : Quad) (q : RegNum) : (s.setSp v).getD q = s.getD q := rfl
@[simp] theorem State.mapped_setSp (v : Quad) (y : Quad) : (s.setSp v).mapped y = s.mapped y := rfl
@[simp] theorem State.isStored_setSp (v : Quad) (y : Quad) : (s.setSp v).isStored y = s.isStored y := rfl
@[simp] theorem State.getA_setRp (v : Quad) (q : RegNum) : (s.setRp v).getA q = s.getA q := rfl
@[simp] theorem State.getD_setRp (v : Quad) (q : RegNum) : (s.setRp v).getD q = s.getD q := rfl
@[simp] theorem State.mapped_setRp (v : Quad) (y : Quad) : (s.setRp v).mapped y = s.mapped y := rfl
@[simp] theorem State.isStored_setRp (v : Quad) (y : Quad) : (s.setRp v).isStored y = s.isStored y := rfl
@[simp] theorem State.getA_setInterruptEnable (v : Bool) (q : RegNum) : (s.setInterruptEnable v).getA q = s.getA q := rfl
@[simp] theorem State.getD_setInterruptEnable (v : Bool) (q : RegNum) : (s.setInterruptEnable v).getD q = s.getD q := rfl
@[simp] theorem State.getSpecial_setInterruptEnable (v : Bool) (y : Special) : (s.setInterruptEnable v).getSpecial y = s.getSpecial y := by cases y <;> rfl
@[simp] theorem State.mapped_setInterruptEnable (v : Bool) (y : Quad) : (s.setInterruptEnable v).mapped y = s.mapped y := rfl
@[simp] theorem State.isStored_setInterruptEnable (v : Bool) (y : Quad) : (s.setInterruptEnable v).isStored y = s.isStored y := rfl
@[simp] theorem State.getA_setVmEnable (v : Bool) (q : RegNum) : (s.setVmEnable v).getA q = s.getA q := rfl
@[simp] theorem State.getD_setVmEnable (v : Bool) (q : RegNum) : (s.setVmEnable v).getD q = s.getD q := rfl
@[simp] theorem State.getSpecial_setVmEnable (v : Bool) (y : Special) : (s.setVmEnable v).getSpecial y = s.getSpecial y := by cases y <;> rfl
@[simp] theorem State.mapped_setVmEnable (v : Bool) (y : Quad) : (s.setVmEnable v).mapped y = s.mapped y := rfl
@[simp] theorem State.isStored_setVmEnable (v : Bool) (y : Quad) : (s.setVmEnable v).isStored y = s.isStored y := rfl
@[simp] theorem State.getA_setUserPt (v : Quad) (q : RegNum) : (s.setUserPt v).getA q = s.getA q := rfl
@[simp] theorem State.getD_setUserPt (v : Quad) (q : RegNum) : (s.setUserPt v).getD q = s.getD q := rfl
@[simp] theorem State.getSpecial_setUserPt (v : Quad) (y : Special) : (s.setUserPt v).getSpecial y = s.getSpecial y := by cases y <;> rfl
@[simp] theorem State.mapped_setUserPt (v : Quad) (y : Quad) : (s.setUserPt v).mapped y = s.mapped y := rfl
@[simp] theorem State.isStored_setUserPt (v : Quad) (y : Quad) : (s.setUserPt v).isStored y = s.isStored y := rfl
@[simp] theorem State.getA_setSuperPt (v : Quad) (q : RegNum) : (s.setSuperPt v).getA q = s.getA q := rfl
@[simp] theorem State.getD_setSuperPt (v : Quad) (q : RegNum) : (s.setSuperPt v).getD q = s.getD q := rfl
@[simp] theorem State.getSpecial_setSuperPt (v : Quad) (y : Special) : (s.setSuperPt v).getSpecial y = s.getSpecial y := by cases y <;> rfl
@[simp] theorem State.mapped_setSuperPt (v : Quad) (y : Quad) : (s.setSuperPt v).mapped y = s.mapped y := rfl
@[simp] theorem State.isStored_setSuperPt (v : Quad) (y : Quad) : (s.setSuperPt v).isStored y = s.isStored y := rfl
@[simp] theorem State.getA_storeWord (x : Quad) (w : Word) (q : RegNum) : (s.storeWord x w).getA q = s.getA q := rfl
@[simp] theorem State.getD_storeWord (x : Quad) (w : Word) (q : RegNum) : (s.storeWord x w).getD q = s.getD q := rfl
@[simp] theorem State.getSpecial_storeWord (x : Quad) (w : Word) (y : Special) : (s.storeWord x w).getSpecial y = s.getSpecial y := by cases y <;> rfl
@[simp] theorem State.mapped_storeWord (x : Quad) (w : Word) (y : Quad) : (s.storeWord x w).mapped y = s.mapped y := rfl
@[simp] theorem State.getA_setSpecial (x : Special) (v : Quad) (q : RegNum) : (s.setSpecial x v).getA q = s.getA q := by cases x <;> rfl
@[simp] theorem State.getD_setSpecial (x : Special) (v : Quad) (q : RegNum) : (s.setSpecial x v).getD q = s.getD q := by cases x <;> rfl
@[simp] theorem State.mapped_setSpecial (x : Special) (v : Quad) (q : Quad) : (s.setSpecial x v).mapped q = s.mapped q := by cases x <;> rfl
@[simp] theorem State.isStored_setSpecial (x : Special) (v : Quad) (q : Quad) : (s.setSpecial x v).isStored q = s.isStored q := by cases x <;> rfl
@[simp] theorem State.getSpecial_pc : s.getSpecial .pc = s.pc := rfl
@[simp] theorem State.getSpecial_ip : s.getSpecial .ip = s.ip := rfl
@[simp] theorem State.getSpecial_sp : s.getSpecial .sp = s.sp := rfl
@[simp] theorem State.getSpecial_rp : s.getSpecial .rp = s.rp := rfl

end Accessors

end Sys2Proof.Machine
end

