-- ==== Sys2Proof/Laws/Memory.lean ====
section
/-! SUPPORT. The laws of memory: a byte written reads back and no other byte changes; every memory operation keeps the
canonical form. -/

namespace Sys2Proof.Machine

/-! ## Bytes -/

/-- Read after write, for every byte. -/
@[simp] theorem Memory.byteAt_putByte (m : Memory) (a b : Nat) (v : Byte) :
    (m.putByte a v).byteAt b = if b = a then some v else m.byteAt b := by
  induction m with
  | nil => simp [Memory.putByte, Memory.byteAt, eq_comm]
  | cons cell rest ih =>
    unfold Memory.putByte
    split
    · simp [Memory.byteAt, eq_comm]
    · split
      · next h =>
        simp only [Memory.byteAt, ← h]
        by_cases hb : b = a
        · simp [hb]
        · simp [hb, Ne.symm hb]
      · next h =>
        simp only [Memory.byteAt, ih]
        by_cases hc : cell.1 = b
        · have : b ≠ a := by omega
          simp [hc, this]
        · simp [hc]

/-- Every number of a list is above `x`. -/
def allAbove (x : Nat) (l : List Nat) : Prop := ∀ y ∈ l, x < y

/-- A rising list is a head below a rising tail. -/
theorem rising_cons (x : Nat) (l : List Nat) : rising (x :: l) = true ↔ allAbove x l ∧ rising l = true := by
  induction l generalizing x with
  | nil => simp [rising, allAbove]
  | cons y rest ih =>
    have hy := ih y
    simp only [rising, Bool.and_eq_true, decide_eq_true_eq, allAbove, List.mem_cons, forall_eq_or_imp] at hy ⊢
    constructor
    · rintro ⟨hxy, hr⟩
      exact ⟨⟨hxy, fun z hz => lt_trans hxy ((hy.1 hr).1 z hz)⟩, hr⟩
    · rintro ⟨⟨hxy, _⟩, hr⟩
      exact ⟨hxy, hr⟩

/-- The addresses after a write are the old ones and the new one. -/
theorem Memory.mem_putByte_fst (m : Memory) (a x : Nat) (v : Byte) :
    x ∈ (m.putByte a v).map Prod.fst ↔ x = a ∨ x ∈ m.map Prod.fst := by
  induction m with
  | nil => simp [Memory.putByte]
  | cons cell rest ih =>
    unfold Memory.putByte
    split
    · simp
    · split
      · next h => simp [h]
      · simp only [List.map_cons, List.mem_cons, ih]
        tauto

/-- A write keeps the addresses rising. -/
theorem Memory.rising_putByte (m : Memory) (a : Nat) (v : Byte) (h : rising (m.map Prod.fst) = true) :
    rising ((m.putByte a v).map Prod.fst) = true := by
  induction m with
  | nil => rfl
  | cons cell rest ih =>
    have hc := (rising_cons _ _).1 h
    unfold Memory.putByte
    split
    · next hlt =>
      refine (rising_cons _ _).2 ⟨fun y hy => ?_, h⟩
      rcases List.mem_cons.1 hy with rfl | hy
      · exact hlt
      · exact lt_trans hlt (hc.1 y hy)
    · split
      · next heq => simpa [heq] using h
      · next hlt hne =>
        refine (rising_cons _ _).2 ⟨fun y hy => ?_, ih hc.2⟩
        rcases (Memory.mem_putByte_fst rest a y v).1 hy with rfl | hy
        · show cell.1 < y
          omega
        · exact hc.1 y hy

/-- The canonical form, by its two parts. -/
theorem Memory.wf_iff (m : Memory) :
    m.wf = true ↔ rising (m.map Prod.fst) = true ∧ ∀ x ∈ m.map Prod.fst, x < 2 ^ 65 := by
  unfold Memory.wf
  rw [Bool.and_eq_true, List.all_eq_true]
  constructor
  · rintro ⟨h, h'⟩
    refine ⟨h, fun x hx => ?_⟩
    obtain ⟨c, hc, rfl⟩ := List.mem_map.1 hx
    simpa using h' c hc
  · rintro ⟨h, h'⟩
    refine ⟨h, fun c hc => ?_⟩
    simpa using h' c.1 (List.mem_map.2 ⟨c, hc, rfl⟩)

/-- Writing a byte inside the address space keeps the canonical form. -/
theorem Memory.wf_putByte (m : Memory) (a : Nat) (v : Byte) (ha : a < 2 ^ 65) (h : m.wf = true) :
    (m.putByte a v).wf = true := by
  obtain ⟨hr, hb⟩ := (Memory.wf_iff m).1 h
  refine (Memory.wf_iff _).2 ⟨Memory.rising_putByte m a v hr, fun x hx => ?_⟩
  rcases (Memory.mem_putByte_fst m a x v).1 hx with rfl | hx
  · exact ha
  · exact hb x hx

/-! ## Words -/

/-- Writing a word keeps the canonical form. -/
theorem Memory.wf_putWord (m : Memory) (x : Quad) (w : Word) (h : m.wf = true) : (m.putWord x w).wf = true := by
  have hx := x.isLt
  exact Memory.wf_putByte _ _ _ (by omega) (Memory.wf_putByte _ _ _ (by omega) h)

/-- What every byte reads after a word is written. -/
theorem Memory.byteAt_putWord (m : Memory) (x : Quad) (w : Word) (b : Nat) :
    (m.putWord x w).byteAt b =
      if b = 2 * x.toNat + 1 then some (loByte w) else if b = 2 * x.toNat then some (hiByte w) else m.byteAt b := by
  simp [Memory.putWord]

/-- The two bytes of a word make the word. -/
@[simp] theorem wordOfBytes_hi_lo (w : Word) : wordOfBytes (hiByte w) (loByte w) = w := by
  unfold wordOfBytes hiByte loByte
  apply BitVec.eq_of_getLsbD_eq
  intro i hi
  rw [BitVec.getLsbD_append]
  split
  · next h => simp [h]
  · next h => simp only [BitVec.getLsbD_extractLsb']; rw [show 8 + (i - 8) = i by omega]; simp; omega

/-- Read after write, for every word; distinct word addresses do not overlap. -/
@[simp] theorem Memory.wordAt_putWord (m : Memory) (x y : Quad) (w : Word) :
    (m.putWord x w).wordAt y = if y = x then some w else m.wordAt y := by
  by_cases h : y = x
  · subst h
    simp [Memory.wordAt, Memory.byteAt_putWord]
  · have hn : y.toNat ≠ x.toNat := fun e => h (BitVec.eq_of_toNat_eq e)
    have h1 : ¬ 2 * y.toNat = 2 * x.toNat + 1 := by omega
    have h2 : ¬ 2 * y.toNat = 2 * x.toNat := by omega
    have h3 : ¬ 2 * y.toNat + 1 = 2 * x.toNat + 1 := by omega
    have h4 : ¬ 2 * y.toNat + 1 = 2 * x.toNat := by omega
    simp only [Memory.wordAt, Memory.byteAt_putWord, h1, h2, h3, h4, h, if_false]

/-! ## The list of stored words -/

/-- The numbers after an insertion are the old ones and the new one. -/
@[simp] theorem mem_insertRising (x y : Nat) (l : List Nat) : y ∈ insertRising x l ↔ y = x ∨ y ∈ l := by
  induction l with
  | nil => simp [insertRising]
  | cons z rest ih =>
    unfold insertRising
    split
    · simp
    · split
      · next h => simp [h]
      · simp only [List.mem_cons, ih]
        tauto

/-- An insertion keeps a list rising. -/
theorem rising_insertRising (x : Nat) (l : List Nat) (h : rising l = true) : rising (insertRising x l) = true := by
  induction l with
  | nil => rfl
  | cons z rest ih =>
    have hz := (rising_cons _ _).1 h
    unfold insertRising
    split
    · next hlt =>
      refine (rising_cons _ _).2 ⟨fun y hy => ?_, h⟩
      rcases List.mem_cons.1 hy with rfl | hy
      · exact hlt
      · exact lt_trans hlt (hz.1 y hy)
    · split
      · exact h
      · refine (rising_cons _ _).2 ⟨fun y hy => ?_, ih hz.2⟩
        rcases (mem_insertRising x y rest).1 hy with rfl | hy
        · omega
        · exact hz.1 y hy

/-- After a store to `x`, exactly `x` and the words stored to before count as stored to. -/
@[simp] theorem State.isStored_storeWord (s : State) (x y : Quad) (w : Word) :
    (s.storeWord x w).isStored y = (decide (y = x) || s.isStored y) := by
  rw [Bool.eq_iff_iff]
  simp [State.isStored, BitVec.toNat_inj]

end Sys2Proof.Machine
end

