-- ==== Sys2Proof/Laws/Ops.lean ====
section
/-! SUPPORT. One lemma per operation of Machine/Ops.lean that says everything it can do when it answers, and the laws of
the total functions of Machine/Effects.lean over memory. -/

namespace Sys2Proof.Machine

/-! ## Results -/

/-- What a sequence of two operations answers. -/
theorem bind_eq_ok {α β : Type} (x : Except Stop α) (f : α → Except Stop β) (b : β) :
    (x >>= f) = .ok b ↔ ∃ a, x = .ok a ∧ f a = .ok b := by
  cases x with
  | error e => simp [bind, Except.bind]
  | ok a => simp [bind, Except.bind]

/-- An answer followed by an operation is the operation. -/
@[simp] theorem ok_bind {α β : Type} (a : α) (f : α → Except Stop β) : ((Except.ok a : Except Stop α) >>= f) = f a := rfl

@[simp] theorem refuse_ne_ok {α : Type} (r : Refusal) (a : α) : refuse r ≠ (.ok a : Except Stop α) := by
  simp [refuse]

/-- A next state comes from an answer. -/
@[simp] theorem finish_eq_next (r : Except Stop State) (t : State) : finish r = .next t ↔ r = .ok t := by
  unfold finish
  split <;> simp

@[simp] theorem finish_ok (t : State) : finish (.ok t) = .next t := rfl

@[simp] theorem finish_refuse (x : Refusal) : finish (refuse x) = .refused x := rfl

/-! ## Words of memory -/

theorem checkAccess_eq_ok (s : State) (x : Quad) :
    checkAccess s x = .ok () ↔ s.vmEnable = false ∧ s.mapped x = true := by
  unfold checkAccess
  split
  · next h => simp [h]
  · next h =>
    split
    · next h' => simp [h, h']
    · next h' => simp [h']

theorem readWord_eq_ok (s : State) (x : Quad) (w : Word) :
    readWord s x = .ok w ↔ s.vmEnable = false ∧ s.mapped x = true ∧ s.memory.wordAt x = some w := by
  unfold readWord
  rw [bind_eq_ok]
  constructor
  · rintro ⟨⟨⟩, h, h'⟩
    split at h'
    · next hw => simp_all [(checkAccess_eq_ok s x).1 h]
    · simp at h'
  · rintro ⟨h1, h2, h3⟩
    exact ⟨(), (checkAccess_eq_ok s x).2 ⟨h1, h2⟩, by simp [h3]⟩

theorem writeWord_eq_ok (s t : State) (x : Quad) (w : Word) :
    writeWord s x w = .ok t ↔ s.vmEnable = false ∧ s.mapped x = true ∧ t = s.storeWord x w := by
  unfold writeWord
  rw [bind_eq_ok]
  constructor
  · rintro ⟨⟨⟩, h, h'⟩
    obtain ⟨h1, h2⟩ := (checkAccess_eq_ok s x).1 h
    exact ⟨h1, h2, (Except.ok.inj h').symm⟩
  · rintro ⟨h1, h2, rfl⟩
    exact ⟨(), (checkAccess_eq_ok s x).2 ⟨h1, h2⟩, rfl⟩

/-! ## Several words -/

/-- `MemRead` answers exactly on a readable range, with its value. -/
theorem readWords_eq_ok (s : State) (x : Quad) (k : Nat) (hk : 0 < k) (v : Quad) :
    readWords s x k = .ok v ↔ s.readable x k ∧ v = s.valueAt x k := by
  induction k generalizing v with
  | zero => omega
  | succ k ih =>
    have step : readWords s x (k + 1) = .ok v ↔
        ∃ u, readWords s x k = .ok u ∧ ∃ w, readWord s (x + BitVec.ofNat 64 k) = .ok w ∧
          (u <<< 16) ||| w.setWidth 64 = v := by
      rw [readWords, bind_eq_ok]
      refine exists_congr fun u => and_congr_right fun _ => ?_
      rw [bind_eq_ok]
      exact exists_congr fun w => and_congr_right fun _ => by simp
    rw [step]
    rcases Nat.eq_zero_or_pos k with rfl | hpos
    · constructor
      · rintro ⟨u, hu, w, hw, rfl⟩
        obtain ⟨h1, h2, h3⟩ := (readWord_eq_ok _ _ _).1 hw
        have hu : u = 0 := (Except.ok.inj hu).symm
        subst hu
        refine ⟨⟨h1, fun j hj => ?_⟩, by rw [State.valueAt, State.wordOrZero, h3]; rfl⟩
        have : j = 0 := by omega
        subst this
        exact ⟨h2, by rw [h3]; rfl⟩
      · rintro ⟨⟨h1, h2⟩, rfl⟩
        obtain ⟨hm, hw⟩ := h2 0 (by omega)
        obtain ⟨w, hw⟩ := Option.isSome_iff_exists.1 hw
        exact ⟨0, rfl, w, (readWord_eq_ok _ _ _).2 ⟨h1, hm, hw⟩, by rw [State.valueAt, State.wordOrZero, hw]; rfl⟩
    · constructor
      · rintro ⟨u, hu, w, hw, rfl⟩
        obtain ⟨⟨h1, h2⟩, rfl⟩ := (ih hpos u).1 hu
        obtain ⟨_, h3, h4⟩ := (readWord_eq_ok _ _ _).1 hw
        refine ⟨⟨h1, fun j hj => ?_⟩, by simp [State.valueAt, State.wordOrZero, h4]⟩
        rcases Nat.lt_succ_iff_lt_or_eq.1 hj with hj | rfl
        · exact h2 j hj
        · exact ⟨h3, by simp [h4]⟩
      · rintro ⟨⟨h1, h2⟩, rfl⟩
        obtain ⟨hm, hw⟩ := h2 k (by omega)
        obtain ⟨w, hw⟩ := Option.isSome_iff_exists.1 hw
        exact ⟨_, (ih hpos _).2 ⟨⟨h1, fun j hj => h2 j (by omega)⟩, rfl⟩, w, (readWord_eq_ok _ _ _).2 ⟨h1, hm, hw⟩,
          by simp [State.valueAt, State.wordOrZero, hw]⟩

section StoreWords

variable (s : State) (x : Quad) (k : Nat) (v : Quad)

/-- A store changes memory and the stored words, nothing else. -/
theorem State.storeWords_eq :
    s.storeWords x k v = { s with memory := (s.storeWords x k v).memory, stored := (s.storeWords x k v).stored } := by
  induction k generalizing v with
  | zero => rfl
  | succ k ih => rw [State.storeWords, ih]; rfl

@[simp] theorem State.storeWords_vmEnable : (s.storeWords x k v).vmEnable = s.vmEnable := by
  rw [State.storeWords_eq]

@[simp] theorem State.storeWords_wtoTarget : (s.storeWords x k v).wtoTarget = s.wtoTarget := by
  rw [State.storeWords_eq]

@[simp] theorem State.storeWords_comPosition : (s.storeWords x k v).comPosition = s.comPosition := by
  rw [State.storeWords_eq]

@[simp] theorem State.storeWords_platform : (s.storeWords x k v).platform = s.platform := by
  rw [State.storeWords_eq]

@[simp] theorem State.getA_storeWords (r : RegNum) : (s.storeWords x k v).getA r = s.getA r := by
  rw [State.storeWords_eq]; rfl

@[simp] theorem State.getD_storeWords (r : RegNum) : (s.storeWords x k v).getD r = s.getD r := by
  rw [State.storeWords_eq]; rfl

@[simp] theorem State.getSpecial_storeWords (r : Special) : (s.storeWords x k v).getSpecial r = s.getSpecial r := by
  rw [State.storeWords_eq]; cases r <;> rfl

@[simp] theorem State.mapped_storeWords (y : Quad) : (s.storeWords x k v).mapped y = s.mapped y := by
  rw [State.storeWords_eq]; rfl

/-- A store keeps the canonical form of memory. -/
theorem State.wf_storeWords (h : s.memory.wf = true) : (s.storeWords x k v).memory.wf = true := by
  induction k generalizing v with
  | zero => exact h
  | succ k ih => exact Memory.wf_putWord _ _ _ (ih _)

/-- A store keeps the stored words rising. -/
theorem State.rising_storeWords (h : rising s.stored = true) : rising (s.storeWords x k v).stored = true := by
  induction k generalizing v with
  | zero => exact h
  | succ k ih => exact rising_insertRising _ _ (ih _)

/-- A byte outside the stored words reads as before. -/
theorem State.byteAt_storeWords (b : Nat)
    (hb : ∀ j, j < k → b ≠ 2 * (x + BitVec.ofNat 64 j).toNat ∧ b ≠ 2 * (x + BitVec.ofNat 64 j).toNat + 1) :
    (s.storeWords x k v).memory.byteAt b = s.memory.byteAt b := by
  induction k generalizing v with
  | zero => rfl
  | succ k ih =>
    obtain ⟨h1, h2⟩ := hb k (by omega)
    rw [State.storeWords, State.storeWord_memory, Memory.byteAt_putWord, if_neg h2, if_neg h1]
    exact ih _ fun j hj => hb j (by omega)

end StoreWords

/-- `MemWrite` answers exactly on a writable range, with the words stored. -/
theorem writeWords_eq_ok (s t : State) (x : Quad) (k : Nat) (hk : 0 < k) (v : Quad) :
    writeWords s x k v = .ok t ↔ s.writable x k ∧ t = s.storeWords x k v := by
  induction k generalizing v t with
  | zero => omega
  | succ k ih =>
    have step : writeWords s x (k + 1) v = .ok t ↔
        ∃ u, writeWords s x k (v >>> 16) = .ok u ∧ writeWord u (x + BitVec.ofNat 64 k) (v.setWidth 16) = .ok t := by
      rw [writeWords, bind_eq_ok]
    rw [step]
    rcases Nat.eq_zero_or_pos k with rfl | hpos
    · constructor
      · rintro ⟨u, hu, hw⟩
        obtain rfl : u = s := (Except.ok.inj hu).symm
        obtain ⟨h1, h2, rfl⟩ := (writeWord_eq_ok _ _ _ _).1 hw
        refine ⟨⟨h1, fun j hj => ?_⟩, rfl⟩
        have : j = 0 := by omega
        subst this
        exact h2
      · rintro ⟨⟨h1, h2⟩, rfl⟩
        exact ⟨s, rfl, (writeWord_eq_ok _ _ _ _).2 ⟨h1, h2 0 (by omega), rfl⟩⟩
    · constructor
      · rintro ⟨u, hu, hw⟩
        obtain ⟨⟨h1, h2⟩, rfl⟩ := (ih u hpos _).1 hu
        obtain ⟨_, h3, rfl⟩ := (writeWord_eq_ok _ _ _ _).1 hw
        refine ⟨⟨h1, fun j hj => ?_⟩, rfl⟩
        rcases Nat.lt_succ_iff_lt_or_eq.1 hj with hj | rfl
        · exact h2 j hj
        · simpa using h3
      · rintro ⟨⟨h1, h2⟩, rfl⟩
        exact ⟨_, (ih _ hpos _).2 ⟨⟨h1, fun j hj => h2 j (by omega)⟩, rfl⟩,
          (writeWord_eq_ok _ _ _ _).2 ⟨by simpa using h1, by simpa using h2 k (by omega), rfl⟩⟩

/-! ## Accesses that stop -/

/-- A read stops with the reason of its first word that cannot be read. -/
theorem readWords_eq_error (s : State) (x : Quad) (k j : Nat) (hj : j < k) (hr : s.readable x j) (e : Stop)
    (h : readWord s (x + BitVec.ofNat 64 j) = .error e) : readWords s x k = .error e := by
  induction k with
  | zero => omega
  | succ k ih =>
    rcases Nat.lt_succ_iff_lt_or_eq.1 hj with hj | rfl
    · rw [readWords, ih hj]
      rfl
    · rcases Nat.eq_zero_or_pos j with rfl | hpos
      · rw [readWords]
        show (readWord _ _ >>= _) = _
        rw [h]
        rfl
      · rw [readWords, (readWords_eq_ok _ _ _ hpos _).2 ⟨hr, rfl⟩, ok_bind, h]
        rfl

/-- No read is carried out while translation is on. -/
theorem readWords_translated (s : State) (x : Quad) (k : Nat) (hk : 0 < k) (h : s.vmEnable = true) :
    readWords s x k = refuse .translationUnspecified := by
  induction k with
  | zero => omega
  | succ k ih =>
    rcases Nat.eq_zero_or_pos k with rfl | hpos
    · simp only [readWords, readWord, checkAccess, h, if_true, ok_bind]
      rfl
    · rw [readWords, ih hpos]
      rfl

/-- A write stops with the fault of its first word that is not mapped. -/
theorem writeWords_eq_error (s : State) (x : Quad) (k j : Nat) (v : Quad) (hj : j < k) (hr : s.writable x j)
    (h : s.mapped (x + BitVec.ofNat 64 j) = false) :
    writeWords s x k v = .error (.fault (.outsideMemory (x + BitVec.ofNat 64 j))) := by
  induction k generalizing v with
  | zero => omega
  | succ k ih =>
    rcases Nat.lt_succ_iff_lt_or_eq.1 hj with hj | rfl
    · rw [writeWords, ih _ hj]
      rfl
    · rcases Nat.eq_zero_or_pos j with rfl | hpos
      · rw [writeWords]
        show writeWord _ _ _ = _
        simp only [writeWord, checkAccess, hr.1, h]
        rfl
      · rw [writeWords, (writeWords_eq_ok _ _ _ _ hpos _).2 ⟨hr, rfl⟩, ok_bind]
        simp only [writeWord, checkAccess, State.storeWords_vmEnable, hr.1, State.mapped_storeWords, h]
        rfl

/-- No write is carried out while translation is on. -/
theorem writeWords_translated (s : State) (x : Quad) (k : Nat) (v : Quad) (hk : 0 < k) (h : s.vmEnable = true) :
    writeWords s x k v = refuse .translationUnspecified := by
  induction k generalizing v with
  | zero => omega
  | succ k ih =>
    rcases Nat.eq_zero_or_pos k with rfl | hpos
    · simp only [writeWords, writeWord, checkAccess, h, if_true, ok_bind]
      rfl
    · rw [writeWords, ih _ hpos]
      rfl

/-! ## The instruction stream -/

theorem State.anyStored_eq_false (s : State) (x : Quad) (k : Nat) :
    s.anyStored x k = false ↔ ∀ j, j < k → s.isStored (x + BitVec.ofNat 64 j) = false := by
  induction k with
  | zero => simp [State.anyStored]
  | succ k ih =>
    rw [State.anyStored, Bool.or_eq_false_iff, ih]
    constructor
    · rintro ⟨h, h'⟩ j hj
      rcases Nat.lt_succ_iff_lt_or_eq.1 hj with hj | rfl
      · exact h j hj
      · exact h'
    · intro h
      exact ⟨fun j hj => h j (by omega), h k (by omega)⟩

/-- A stream read answers exactly when the words can be taken from the stream, and moves PC past them. -/
theorem streamRead_eq_ok (s t : State) (k : Nat) (hk : 0 < k) (v : Quad) :
    streamRead s k = .ok (v, t) ↔
      s.streamable k ∧ v = s.valueAt s.pc k ∧ t = s.setPc (s.pc + BitVec.ofNat 64 k) := by
  unfold streamRead
  rw [bind_eq_ok]
  constructor
  · rintro ⟨u, hu, h⟩
    obtain ⟨hr, rfl⟩ := (readWords_eq_ok _ _ _ hk _).1 hu
    split at h
    · exact absurd h (refuse_ne_ok _ _)
    · next hs =>
      obtain ⟨rfl, rfl⟩ := Prod.mk.inj (Except.ok.inj h)
      exact ⟨⟨hr, (State.anyStored_eq_false _ _ _).1 (by simpa using hs)⟩, rfl, rfl⟩
  · rintro ⟨⟨hr, hs⟩, rfl, rfl⟩
    refine ⟨_, (readWords_eq_ok _ _ _ hk _).2 ⟨hr, rfl⟩, ?_⟩
    rw [(State.anyStored_eq_false _ _ _).2 hs]
    rfl

/-- One word has the value of its word. -/
theorem State.valueAt_one (s : State) (x : Quad) : s.valueAt x 1 = (s.wordOrZero x).setWidth 64 := by
  simp [State.valueAt]

/-- A fetch takes one word of the stream. -/
theorem fetch_eq_ok (s t : State) (w : Word) :
    fetch s = .ok (w, t) ↔ s.streamable 1 ∧ w = s.wordOrZero s.pc ∧ t = s.setPc (s.pc + 1) := by
  have hw : ((s.wordOrZero s.pc).setWidth 64).setWidth 16 = s.wordOrZero s.pc := by
    simp
  unfold fetch
  rw [bind_eq_ok]
  constructor
  · rintro ⟨⟨u, s1⟩, hu, h⟩
    obtain ⟨hs, rfl, rfl⟩ := (streamRead_eq_ok _ _ _ (by omega) _).1 hu
    obtain ⟨rfl, rfl⟩ := Prod.mk.inj (Except.ok.inj h)
    exact ⟨hs, by rw [State.valueAt_one, hw], rfl⟩
  · rintro ⟨hs, rfl, rfl⟩
    refine ⟨_, (streamRead_eq_ok s (s.setPc (s.pc + 1)) 1 (by omega) _).2 ⟨hs, rfl, rfl⟩, ?_⟩
    show Except.ok _ = _
    rw [State.valueAt_one, hw]

/-! ## Privilege -/

/-- A privileged action answers exactly in a mode that may run it. -/
theorem privileged_eq_ok (m : Mode) (s t : State) (action : Except Stop State) :
    privileged m s action = .ok t ↔ s.mode.atLeast m = true ∧ action = .ok t := by
  unfold privileged
  split
  · next h => simp [h]
  · next h => simp [h]

end Sys2Proof.Machine
end

