-- ==== Sys2Proof/Laws/Operands.lean ====
section
/-! SUPPORT. What each operand access and each instruction template does when it answers, once and for every form. -/

namespace Sys2Proof.Machine

theorem stepOf_sizeBits_pos (z : Size) : 0 < stepOf (sizeBits z) := by cases z <;> decide

theorem stepOf_precisionBits_pos (p : Precision) : 0 < stepOf (precisionBits p) := by cases p <;> decide

/-! ## Operand access -/

/-- The read half of a form answers exactly when its access is carried out. -/
theorem readForm_eq_ok (s t : State) (f : Form) (n : Nat) (hn : 0 < stepOf n) (v : Quad) :
    readForm s f n = .ok (v, t) ↔ formReady s f n ∧ v = formValue s f n ∧ t = formState s f n := by
  cases f with
  | pcSp => exact streamRead_eq_ok s t _ hn v
  | ipRp | spSp | rpRp =>
    simp only [readForm, readPointer, bind_eq_ok, formReady, formValue, formState]
    constructor
    · rintro ⟨u, hu, h⟩
      obtain ⟨hr, rfl⟩ := (readWords_eq_ok _ _ _ hn _).1 hu
      obtain ⟨rfl, rfl⟩ := Prod.mk.inj (Except.ok.inj h)
      exact ⟨hr, rfl, rfl⟩
    · rintro ⟨hr, rfl, rfl⟩
      exact ⟨_, (readWords_eq_ok _ _ _ hn _).2 ⟨hr, rfl⟩, rfl⟩

/-- A read of a memory operand "(An)". -/
theorem readMem_eq_ok (s t : State) (x : Quad) (k : Nat) (hk : 0 < k) (v : Quad) :
    (do let u ← readWords s x k; .ok (u, s) : Except Stop (Quad × State)) = .ok (v, t) ↔
      s.readable x k ∧ v = s.valueAt x k ∧ t = s := by
  rw [bind_eq_ok]
  constructor
  · rintro ⟨u, hu, h⟩
    obtain ⟨hr, rfl⟩ := (readWords_eq_ok _ _ _ hk _).1 hu
    obtain ⟨rfl, rfl⟩ := Prod.mk.inj (Except.ok.inj h)
    exact ⟨hr, rfl, rfl⟩
  · rintro ⟨hr, rfl, rfl⟩
    exact ⟨_, (readWords_eq_ok _ _ _ hk _).2 ⟨hr, rfl⟩, rfl⟩

theorem ok_pair_eq {a b : Quad} {s t : State} :
    (Except.ok (a, s) : Except Stop (Quad × State)) = .ok (b, t) ↔ b = a ∧ t = s := by
  simp [Prod.ext_iff, eq_comm]

/-- A source read answers exactly on a source that can be read. -/
theorem readSrc_eq_ok (s t : State) (src : Operand) (n : Nat) (hn : 0 < stepOf n) (v : Quad) :
    readSrc s src n = .ok (v, t) ↔ srcReady s src n ∧ v = srcValue s src n ∧ t = srcState s src n := by
  cases src with
  | an r | dn r | special r => simp [readSrc, srcReady, srcValue, srcState, eq_comm]
  | mem r => exact readMem_eq_ok s t _ _ hn v
  | form f => exact readForm_eq_ok s t f n hn v

/-- A destination read answers exactly on a destination that can be read. -/
theorem readDst_eq_ok (s t : State) (dst : Operand) (n opw : Nat) (hn : 0 < stepOf n) (v : Quad) :
    readDst s dst n opw = .ok (v, t) ↔ dstReady s dst n ∧ v = dstValue s dst n opw ∧ t = dstState s dst n := by
  cases dst with
  | an r | dn r | special r => simp [readDst, dstReady, dstValue, dstState, eq_comm]
  | mem r => exact readMem_eq_ok s t _ _ hn v
  | form f => exact readForm_eq_ok s t f n hn v

/-- A destination write answers exactly on a destination that can be written. -/
theorem writeDst_eq_ok (s t : State) (dst : Operand) (n opw : Nat) (hn : 0 < stepOf n) (v : Quad) :
    writeDst s dst n opw v = .ok t ↔ writeReady s dst n ∧ t = writeState s dst n opw v := by
  cases dst with
  | an r | dn r | special r =>
    simp [writeDst, writeReady, writeState, storeAddress, Operand.isForm, eq_comm]
  | mem r => exact writeWords_eq_ok s t _ _ hn v
  | form f =>
    cases f with
    | pcSp | ipRp =>
      simp only [writeDst, writePointer, writeReady, writeState, storeAddress, Option.map_some]
      rw [writeWords_eq_ok _ _ _ _ hn]
      simp [State.writable]
    | spSp | rpRp => simp [writeDst, writePointer, writeReady, storeAddress, Operand.isForm]

/-! ## Checks -/

theorem checkWriteForm_eq_ok (dst : Operand) :
    checkWriteForm dst = .ok () ↔ dst ≠ .form .spSp ∧ dst ≠ .form .rpRp := by
  rcases dst with _ | _ | _ | _ | f
  · simp [checkWriteForm]
  · simp [checkWriteForm]
  · simp [checkWriteForm]
  · simp [checkWriteForm]
  · cases f <;> simp [checkWriteForm]

theorem checkPointers_eq_ok (use : DstUse) (dst src : Operand) :
    checkPointers use dst src = .ok () ↔ samePointer use dst src = false := by
  unfold checkPointers
  split
  · next h => simp [h]
  · next h => simp [h]

theorem checkUnaryWidth_eq_ok (n : Nat) (dst : Operand) : checkUnaryWidth n dst = .ok () ↔ opWidth dst n = n := by
  unfold checkUnaryWidth
  split
  · next h => simp [h]
  · next h => simp [h]

theorem checkExchangeWidth_eq_ok (n : Nat) (dst : Operand) :
    checkExchangeWidth n dst = .ok () ↔ opWidth dst n = 64 := by
  unfold checkExchangeWidth
  split
  · next h => simp [h]
  · next h => simp [h]

theorem checkExchangePointer_eq_ok (x : Special) (dst : Operand) :
    checkExchangePointer x dst = .ok () ↔ ¬ (dst = .form .pcSp ∧ x = .sp) ∧ ¬ (dst = .form .ipRp ∧ x = .rp) := by
  rcases dst with _ | _ | _ | _ | f
  · simp [checkExchangePointer]
  · simp [checkExchangePointer]
  · simp [checkExchangePointer]
  · simp [checkExchangePointer]
  · cases f <;> cases x <;> simp [checkExchangePointer]

theorem checkTested_eq_ok (dst : Operand) : checkTested dst = .ok () ↔ dst ≠ .form .pcSp := by
  rcases dst with _ | _ | _ | _ | f
  · simp [checkTested]
  · simp [checkTested]
  · simp [checkTested]
  · simp [checkTested]
  · cases f <;> simp [checkTested]

/-! ## Templates: what each can do -/

/-- A two-operand instruction that answers has read, computed and written as its template says. -/
theorem modifyOp_ok {f : Quad → Quad → Quad} {n opw : Nat} (hn : 0 < stepOf n) {dst src : Operand} {s t : State}
    (h : modifyOp f n opw dst src s = .ok t) : modifyReady s dst src n ∧ t = modifyState f s dst src n opw := by
  unfold modifyOp at h
  obtain ⟨⟨⟩, _, h⟩ := (bind_eq_ok _ _ _).1 h
  obtain ⟨⟨⟩, hp, h⟩ := (bind_eq_ok _ _ _).1 h
  obtain ⟨⟨b, s1⟩, hb, h⟩ := (bind_eq_ok _ _ _).1 h
  obtain ⟨hb', rfl, rfl⟩ := (readSrc_eq_ok _ _ _ _ hn _).1 hb
  obtain ⟨⟨a, s2⟩, ha, h⟩ := (bind_eq_ok _ _ _).1 h
  obtain ⟨ha', rfl, rfl⟩ := (readDst_eq_ok _ _ _ _ _ hn _).1 ha
  obtain ⟨hw, rfl⟩ := (writeDst_eq_ok _ _ _ _ _ hn _).1 h
  exact ⟨⟨(checkPointers_eq_ok _ _ _).1 hp, hb', ha', hw⟩, rfl⟩

/-- A MOV that answers has read its source and written its destination. -/
theorem moveOp_ok {n opw : Nat} (hn : 0 < stepOf n) {dst src : Operand} {s t : State}
    (h : moveOp n opw dst src s = .ok t) :
    moveReady s dst src n ∧ t = writeState (srcState s src n) dst n opw (widen opw n (srcValue s src n)) := by
  unfold moveOp at h
  obtain ⟨⟨⟩, _, h⟩ := (bind_eq_ok _ _ _).1 h
  obtain ⟨⟨⟩, hp, h⟩ := (bind_eq_ok _ _ _).1 h
  obtain ⟨⟨b, s1⟩, hb, h⟩ := (bind_eq_ok _ _ _).1 h
  obtain ⟨hb', rfl, rfl⟩ := (readSrc_eq_ok _ _ _ _ hn _).1 hb
  obtain ⟨hw, rfl⟩ := (writeDst_eq_ok _ _ _ _ _ hn _).1 h
  exact ⟨⟨(checkPointers_eq_ok _ _ _).1 hp, hb', hw⟩, rfl⟩

/-- An instruction that only writes its destination. -/
theorem setOp_ok {v : Quad} {n opw : Nat} (hn : 0 < stepOf n) {dst : Operand} {s t : State}
    (h : setOp v n opw dst s = .ok t) : writeReady s dst n ∧ t = writeState s dst n opw (low opw v) := by
  unfold setOp at h
  obtain ⟨⟨⟩, _, h⟩ := (bind_eq_ok _ _ _).1 h
  exact (writeDst_eq_ok _ _ _ _ _ hn _).1 h

/-- A quick operation that answers has read, computed and written its destination. -/
theorem quickOp_ok {f : Quad → Quad → Quad} {n opw : Nat} (hn : 0 < stepOf n) {dst : Operand} {q : Quick} {s t : State}
    (h : quickOp f n opw dst q s = .ok t) :
    updateReady s dst n ∧
      t = writeState (dstState s dst n) dst n opw (low opw (f (dstValue s dst n opw) (quickConstant q))) := by
  unfold quickOp at h
  obtain ⟨⟨⟩, _, h⟩ := (bind_eq_ok _ _ _).1 h
  obtain ⟨⟨a, s1⟩, ha, h⟩ := (bind_eq_ok _ _ _).1 h
  obtain ⟨ha', rfl, rfl⟩ := (readDst_eq_ok _ _ _ _ _ hn _).1 ha
  obtain ⟨hw, rfl⟩ := (writeDst_eq_ok _ _ _ _ _ hn _).1 h
  exact ⟨⟨ha', hw⟩, rfl⟩

/-- A halves or fulls function that answers has read, computed and written its operand. -/
theorem unaryOp_ok {f : Nat → Quad → Quad} {n : Nat} (hn : 0 < stepOf n) {dst : Operand} {s t : State}
    (h : unaryOp f n dst s = .ok t) :
    opWidth dst n = n ∧ updateReady s dst n ∧
      t = writeState (dstState s dst n) dst n n (low n (f n (dstValue s dst n n))) := by
  unfold unaryOp at h
  obtain ⟨⟨⟩, _, h⟩ := (bind_eq_ok _ _ _).1 h
  obtain ⟨⟨⟩, hu, h⟩ := (bind_eq_ok _ _ _).1 h
  obtain ⟨⟨a, s1⟩, ha, h⟩ := (bind_eq_ok _ _ _).1 h
  obtain ⟨ha', rfl, rfl⟩ := (readDst_eq_ok _ _ _ _ _ hn _).1 ha
  obtain ⟨hw, rfl⟩ := (writeDst_eq_ok _ _ _ _ _ hn _).1 h
  exact ⟨(checkUnaryWidth_eq_ok _ _).1 hu, ⟨ha', hw⟩, rfl⟩

/-- An exchange that answers has swapped its register with its destination. -/
theorem exchangeOp_ok {x : Special} {n : Nat} (hn : 0 < stepOf n) {dst : Operand} {s t : State}
    (h : exchangeOp x n dst s = .ok t) :
    opWidth dst n = 64 ∧ updateReady s dst n ∧
      t = (writeState (dstState s dst n) dst n (opWidth dst n) ((dstState s dst n).getSpecial x)).setSpecial x
        (dstValue s dst n (opWidth dst n)) := by
  unfold exchangeOp at h
  obtain ⟨⟨⟩, _, h⟩ := (bind_eq_ok _ _ _).1 h
  obtain ⟨⟨⟩, hu, h⟩ := (bind_eq_ok _ _ _).1 h
  obtain ⟨⟨⟩, _, h⟩ := (bind_eq_ok _ _ _).1 h
  obtain ⟨⟨a, s1⟩, ha, h⟩ := (bind_eq_ok _ _ _).1 h
  obtain ⟨ha', rfl, rfl⟩ := (readDst_eq_ok _ _ _ _ _ hn _).1 ha
  obtain ⟨s2, hw, h⟩ := (bind_eq_ok _ _ _).1 h
  obtain ⟨hw', rfl⟩ := (writeDst_eq_ok _ _ _ _ _ hn _).1 hw
  exact ⟨(checkExchangeWidth_eq_ok _ _).1 hu, ⟨ha', hw'⟩, (Except.ok.inj h).symm⟩

/-- The long form's displacement: the 17-bit number of the marker's low bit and the d16 (42_quick_branches.md R151). -/
theorem minus_displacement (w : Word) :
    (w.setWidth 64 : Quad) - 65536 = ((1#1 ++ w : BitVec 17)).signExtend 64 := by
  apply BitVec.eq_of_toInt_eq
  have hw := w.isLt
  rw [BitVec.toInt_signExtend_of_le (by omega)]
  simp only [BitVec.toInt_eq_toNat_cond, BitVec.toNat_sub, BitVec.toNat_setWidth, BitVec.toNat_append,
    BitVec.toNat_ofNat, Nat.shiftLeft_eq]
  have : (2 : Nat) ^ 16 ||| w.toNat = 2 ^ 16 + w.toNat := by
    have := Nat.two_pow_add_eq_or_of_lt (i := 16) hw 1
    simpa using this.symm
  have h16 : (65536 : Quad).toNat = 65536 := by decide
  norm_num at this ⊢
  rw [this, h16]
  push_cast
  split <;> omega

theorem zero_displacement (w : Word) :
    (w.setWidth 64 : Quad) = ((0#1 ++ w : BitVec 17)).signExtend 64 := by
  apply BitVec.eq_of_toInt_eq
  have hw := w.isLt
  rw [BitVec.toInt_signExtend_of_le (by omega)]
  simp only [BitVec.toInt_eq_toNat_cond, BitVec.toNat_setWidth, BitVec.toNat_append, BitVec.toNat_ofNat,
    Nat.shiftLeft_eq]
  norm_num
  omega

/-- A displacement answers with the value and the state that rule R151 gives. -/
theorem displacement_eq_ok (s t : State) (q : Quick) (v : Quad) :
    displacement q s = .ok (v, t) ↔
      displacementReady s q ∧ v = displacementValue s q ∧ t = displacementState s q := by
  unfold displacement displacementReady displacementValue displacementState
  by_cases h0 : q = 0#5
  · subst h0
    simp only [longMarker, if_true, streamRead_eq_ok s t 1 (by omega) v, State.valueAt_one, zero_displacement]
    simp
  · by_cases h1 : q = 31#5
    · subst h1
      simp only [h0, if_false, if_true, bind_eq_ok]
      have hm : longMarker 31#5 = true := rfl
      simp only [hm, if_true, forall_const]
      constructor
      · rintro ⟨⟨u, s1⟩, hu, h⟩
        obtain ⟨hs, rfl, rfl⟩ := (streamRead_eq_ok _ _ _ (by omega) _).1 hu
        obtain ⟨rfl, rfl⟩ := Prod.mk.inj (Except.ok.inj h)
        exact ⟨hs, by rw [State.valueAt_one, minus_displacement]; rfl, rfl⟩
      · rintro ⟨hs, rfl, rfl⟩
        refine ⟨_, (streamRead_eq_ok s _ 1 (by omega) _).2 ⟨hs, rfl, rfl⟩, ?_⟩
        show Except.ok (_ - 65536, _) = _
        rw [State.valueAt_one, minus_displacement]
        rfl
    · have hm : longMarker q = false := by simp [longMarker, h0, h1]
      simp [h0, h1, hm, eq_comm]

/-- A branch that answers has tested its operand and moved PC as its template says. -/
theorem branchOp_ok {cond : Quad → Bool} {n opw : Nat} (hn : 0 < stepOf n) {dst : Operand} {q : Quick} {s t : State}
    (h : branchOp cond n opw dst q s = .ok t) : branchReady s dst n q ∧ t = branchState cond s dst n opw q := by
  unfold branchOp at h
  obtain ⟨⟨⟩, hc, h⟩ := (bind_eq_ok _ _ _).1 h
  obtain ⟨⟨a, s1⟩, ha, h⟩ := (bind_eq_ok _ _ _).1 h
  obtain ⟨ha', rfl, rfl⟩ := (readDst_eq_ok _ _ _ _ _ hn _).1 ha
  obtain ⟨⟨d, s2⟩, hd, h⟩ := (bind_eq_ok _ _ _).1 h
  obtain ⟨hd', rfl, rfl⟩ := (displacement_eq_ok _ _ _ _).1 hd
  exact ⟨⟨(checkTested_eq_ok _).1 hc, ha', hd'⟩, (Except.ok.inj h).symm⟩

/-! ## What the templates leave alone -/

theorem srcState_memory (s : State) (src : Operand) (n : Nat) : (srcState s src n).memory = s.memory := by
  rcases src with _ | _ | _ | _ | f
  · rfl
  · rfl
  · rfl
  · rfl
  · exact State.setSpecial_memory _ _ _

theorem dstState_memory (s : State) (dst : Operand) (n : Nat) : (dstState s dst n).memory = s.memory := by
  rcases dst with _ | _ | _ | _ | f
  · rfl
  · rfl
  · rfl
  · rfl
  · exact State.setSpecial_memory _ _ _

/-- A destination write keeps the canonical form of memory. -/
theorem writeState_wf (s : State) (dst : Operand) (n opw : Nat) (v : Quad) (h : s.memory.wf = true) :
    (writeState s dst n opw v).memory.wf = true := by
  rcases dst with _ | _ | _ | _ | f
  · exact h
  · exact State.wf_storeWords _ _ _ _ h
  · exact h
  · simpa [writeState] using h
  · cases f with
    | pcSp | ipRp => exact State.wf_storeWords _ _ _ _ (by simpa using h)
    | spSp | rpRp => exact h

end Sys2Proof.Machine
end

