-- ==== Sys2Proof/Laws/Safety.lean ====
section
/-! SUPPORT. The small lemmas of the register an operand is (`registerOf`, `withRegister` of Safety.lean). -/

namespace Sys2Proof.Machine

/-- The register an operand is holds what it was set to. -/
theorem State.registerOf_withRegister (s : State) (o : Option Operand) (v : Quad) :
    (s.withRegister o v).registerOf o = (s.registerOf o).map fun _ => v := by
  rcases o with _ | r | r | r | x | f
  · rfl
  · simp [State.withRegister, State.registerOf]
  · rfl
  · simp [State.withRegister, State.registerOf]
  · simp [State.withRegister, State.registerOf]
  · rfl

/-- Setting it changes no memory. -/
@[simp] theorem State.withRegister_memory (s : State) (o : Option Operand) (v : Quad) :
    (s.withRegister o v).memory = s.memory := by
  rcases o with _ | r | r | r | x | f
  · rfl
  · rfl
  · rfl
  · rfl
  · exact State.setSpecial_memory _ _ _
  · rfl

/-- Setting it changes no other data register. -/
theorem State.getD_withRegister (s : State) (o : Option Operand) (v : Quad) (r : RegNum) (h : o ≠ some (.dn r)) :
    (s.withRegister o v).getD r = s.getD r := by
  rcases o with _ | q | q | q | x | f
  · rfl
  · rfl
  · rfl
  · have hq : r ≠ q := fun e => h (by rw [e])
    simp [State.withRegister, hq]
  · exact State.getD_setSpecial _ _ _ _
  · rfl

end Sys2Proof.Machine
end

