-- ==== Sys2Proof/Tests/Slice0.lean ====
section
/-! SUPPORT. Tests: the well-formedness checks refuse, words written out from the spec's encodings decode, single steps
reproduce the worked examples of the rules and of 95_test_vectors.md, and for each obligation with hypotheses a state
and operands that meet them (`test_meets_...`). -/

namespace Sys2Proof.Machine

/-! ## Well-formedness refuses (30_encoding.md R97, R98, R101, R102) -/

theorem test_wf_reserved_extension_source : (Instr.reservedExtension 0 .pc .ip).wf = false := by decide
theorem test_wf_vector_source : (Instr.reservedVectorPrefix 0 .pc .pc).wf = false := by decide
theorem test_wf_at_source : (Instr.atTrp 0 (.special .sp)).wf = false := by decide
theorem test_wf_fcn_destination : (Instr.fcn 0 .double (.special .ip) .pc).wf = false := by decide
theorem test_wf_float_destination : (Instr.fdv .double (.special .ip) (.dn 0)).wf = false := by decide
theorem test_wf_float_source : (Instr.fad .float (.dn 0) (.special .rp)).wf = false := by decide
theorem test_wf_float_branch_operand : (Instr.fbi .float (.special .pc) 3).wf = false := by decide
theorem test_wf_nop_source_form : (Instr.mllNopDst .w (.form .spSp)).wf = false := by decide
theorem test_wf_nop_destination_form : (Instr.xorNopSrc .w (.form .pcSp)).wf = false := by decide
theorem test_wf_nop_destination_pc : (Instr.andNopSrc .w (.special .pc)).wf = false := by decide
theorem test_wf_nop_branch_marker : (Instr.bzeNop .l 31).wf = false := by decide
theorem test_wf_unary_pc : (Instr.exh .q (.special .pc)).wf = false := by decide
theorem test_wf_wto_pc : (Instr.wto (.special .pc)).wf = false := by decide
theorem test_wf_wto_group_size : (Instr.wtoGroup .q (.dn 0)).wf = false := by decide
theorem test_wf_cfr_source : (Instr.cfr .q (.dn 0) (.dn 1)).wf = false := by decide
theorem test_wf_mll_pc : (Instr.mll .q (.special .pc) (.dn 1)).wf = false := by decide
theorem test_wf_mlq_pc : (Instr.mlq .q (.special .pc) 1).wf = false := by decide
theorem test_wf_branch_pc : (Instr.bpl .q (.special .pc) 1).wf = false := by decide

/-! ## Decoding: words written out field by field, `op dmode dreg sec size smode sreg` (30_encoding.md R80) -/

/-- 45_system_ops.md R232 to R236, R260, R261. -/
theorem test_decode_traps :
    decodeWord 0b011_11_000_1_11_11_000 = .brk 3 ∧ decodeWord 0b000_11_010_1_11_11_000 = .trp 0 ∧
    decodeWord 0b101_11_100_1_11_11_000 = .hpr 5 ∧ decodeWord 0b000_11_110_1_11_11_000 = .civ 0 ∧
    decodeWord 0b100_11_000_1_11_11_010 = .reserved 4 ∧ decodeWord 0b001_11_010_1_11_11_010 = .systemDesign 1 ∧
    decodeWord 0b010_11_110_1_11_11_100 = .reservedExtension 2 .rp .sp := by decide

/-- 45_system_ops.md R264 to R272. -/
theorem test_decode_supervisor :
    decodeWord 0b000_11_100_1_11_11_010 = .snp ∧ decodeWord 0b001_11_100_1_11_11_010 = .sup ∧
    decodeWord 0b010_11_100_1_11_11_010 = .ein ∧ decodeWord 0b011_11_100_1_11_11_010 = .din ∧
    decodeWord 0b100_11_100_1_11_11_010 = .wti ∧ decodeWord 0b101_11_100_1_11_11_010 = .cls ∧
    decodeWord 0b110_11_100_1_11_11_010 = .rss ∧ decodeWord 0b111_11_100_1_11_11_010 = .sil := by decide

/-- 45_system_ops.md R273 to R280. -/
theorem test_decode_hypervisor :
    decodeWord 0b000_11_110_1_11_11_010 = .hnp ∧ decodeWord 0b001_11_110_1_11_11_010 = .ssp ∧
    decodeWord 0b010_11_110_1_11_11_010 = .evm ∧ decodeWord 0b011_11_110_1_11_11_010 = .dvm ∧
    decodeWord 0b100_11_110_1_11_11_010 = .cli ∧ decodeWord 0b101_11_110_1_11_11_010 = .clh ∧
    decodeWord 0b110_11_110_1_11_11_010 = .rsh ∧ decodeWord 0b111_11_110_1_11_11_010 = .hil := by decide

/-- 45_system_ops.md R240 to R263. -/
theorem test_decode_com_and_at :
    decodeWord 0b001_11_010_0_11_11_000 = .com 5 ∧ decodeWord 0b000_11_000_0_11_11_010 = .userExtension 0 .pc ∧
    decodeWord 0b110_11_010_0_11_11_110 = .reservedVectorPrefix 6 .ip .rp ∧
    decodeWord 0b000_11_000_1_11_01_001 = .atBrk 0 (.mem 1) ∧ decodeWord 0b001_11_010_1_11_11_001 = .atTrp 1 (.form .pcSp) ∧
    decodeWord 0b000_11_100_1_11_10_011 = .atHvr 0 (.dn 3) ∧ decodeWord 0b000_11_110_1_11_00_111 = .atCiv 0 (.an 7) ∧
    decodeWord 0b001_11_110_0_11_01_001 = .atCom 7 (.mem 1) := by decide

/-- 43_float_ops.md R161 to R171. -/
theorem test_decode_float :
    decodeWord 0b010_10_000_1_11_11_100 = .fcn 2 .double (.dn 0) .sp ∧
    decodeWord 0b000_10_000_1_11_10_001 = .fdv .double (.dn 0) (.dn 1) ∧
    decodeWord 0b001_10_010_0_11_01_000 = .fad .float (.dn 2) (.mem 0) ∧
    decodeWord 0b010_10_000_1_11_10_000 = .fml .double (.dn 0) (.dn 0) ∧
    decodeWord 0b011_10_001_1_11_10_010 = .fsb .double (.dn 1) (.dn 2) ∧
    decodeWord 0b100_10_000_1_11_00010 = .fbp .double (.dn 0) 2 ∧
    decodeWord 0b101_10_000_1_11_00010 = .fbm .double (.dn 0) 2 ∧
    decodeWord 0b110_01_001_0_11_11100 = .fbd .float (.mem 1) 28 ∧
    decodeWord 0b111_10_111_1_11_01111 = .fbi .double (.dn 7) 15 := by decide

/-- 30_encoding.md R102, group (a). -/
theorem test_decode_nop_operands :
    decodeWord 0b010_11_000_1_01_11_101 = .mllNopDstRefused .l .spSp ∧
    decodeWord 0b010_11_001_1_01_11_000 = .mllNopSrcRefused .l .pcSp ∧
    decodeWord 0b010_11_000_1_01_11_000 = .mllNopDst .l (.special .pc) ∧
    decodeWord 0b010_10_011_1_01_11_000 = .mllNopSrc .l (.dn 3) ∧
    decodeWord 0b101_11_000_1_00_11_001 = .andNopDstRefused .w .pcSp ∧
    decodeWord 0b101_11_011_1_00_11_000 = .andNopSrcRefused .w .ipRp ∧
    decodeWord 0b101_11_000_1_00_01_010 = .andNopDst .w (.mem 2) ∧
    decodeWord 0b101_00_001_1_00_11_000 = .andNopSrc .w (.an 1) ∧
    decodeWord 0b110_11_000_1_10_11_111 = .orrNopDstRefused .q .rpRp ∧
    decodeWord 0b110_11_111_1_10_11_000 = .orrNopSrcRefused .q .rpRp ∧
    decodeWord 0b110_11_000_1_10_10_000 = .orrNopDst .q (.dn 0) ∧
    decodeWord 0b110_11_010_1_10_11_000 = .orrNopSrc .q (.special .ip) ∧
    decodeWord 0b111_11_000_1_01_11_011 = .xorNopDstRefused .l .ipRp ∧
    decodeWord 0b111_11_101_1_01_11_000 = .xorNopSrcRefused .l .spSp ∧
    decodeWord 0b111_11_000_1_01_11_110 = .xorNopDst .l (.special .rp) ∧
    decodeWord 0b111_01_000_1_01_11_000 = .xorNopSrc .l (.mem 0) := by decide

/-- 30_encoding.md R102, groups (b) and (c). -/
theorem test_decode_nop_quick :
    decodeWord 0b010_11_000_0_01_00111 = .mlqNop .l 7 ∧
    decodeWord 0b100_11_000_0_00_00000 = .bplNopZeroRefused .w ∧ decodeWord 0b100_11_000_0_00_11111 = .bplNopMinusRefused .w ∧
    decodeWord 0b100_11_000_0_00_00001 = .bplNop .w 1 ∧
    decodeWord 0b101_11_000_0_01_00000 = .bmiNopZeroRefused .l ∧ decodeWord 0b101_11_000_0_01_11111 = .bmiNopMinusRefused .l ∧
    decodeWord 0b101_11_000_0_01_10000 = .bmiNop .l 16 ∧
    decodeWord 0b110_11_000_0_10_00000 = .bzeNopZeroRefused .q ∧ decodeWord 0b110_11_000_0_10_11111 = .bzeNopMinusRefused .q ∧
    decodeWord 0b110_11_000_0_10_11110 = .bzeNop .q 30 ∧
    decodeWord 0b111_11_000_0_01_00000 = .bnzNopZeroRefused .l ∧ decodeWord 0b111_11_000_0_01_11111 = .bnzNopMinusRefused .l ∧
    decodeWord 0b111_11_000_0_01_01111 = .bnzNop .l 15 ∧
    decodeWord 0b100_11_000_1_01_00_010 = .halvesNop .l 2 ∧ decodeWord 0b100_11_000_1_00_10_101 = .fullsNop .w 5 := by
  decide

/-- 44_cfr.md R180 to R198. -/
theorem test_decode_exchanges_and_halves :
    decodeWord 0b100_11_001_1_10_11_000 = .pcx .q (.form .pcSp) ∧ decodeWord 0b100_11_011_1_10_11_010 = .ipx .q (.form .ipRp) ∧
    decodeWord 0b100_00_111_1_10_11_100 = .spx .q (.an 7) ∧ decodeWord 0b100_10_110_1_10_11_110 = .rpx .q (.dn 6) ∧
    decodeWord 0b100_10_000_1_01_00_000 = .exh .l (.dn 0) ∧ decodeWord 0b100_10_000_1_01_00_001 = .sxl .l (.dn 0) ∧
    decodeWord 0b100_10_001_1_00_00_010 = .inu .w (.dn 1) ∧ decodeWord 0b100_10_001_1_00_00_011 = .dcu .w (.dn 1) ∧
    decodeWord 0b100_10_000_1_01_00_100 = .slt .l (.dn 0) ∧ decodeWord 0b100_10_000_1_01_00_101 = .srt .l (.dn 0) ∧
    decodeWord 0b100_10_000_1_01_00_110 = .adu .l (.dn 0) ∧ decodeWord 0b100_10_000_1_01_00_111 = .sbu .l (.dn 0) ∧
    decodeWord 0b100_00_000_1_01_01_001 = .cfr .l (.an 0) (.mem 1) := by decide

/-- 44_cfr.md R200 to R208. -/
theorem test_decode_fulls :
    decodeWord 0b100_10_000_1_00_10_000 = .abs .w (.dn 0) ∧ decodeWord 0b100_10_010_1_01_10_001 = .sgn .l (.dn 2) ∧
    decodeWord 0b100_10_000_1_01_10_010 = .not .l (.dn 0) ∧ decodeWord 0b100_10_000_1_01_10_011 = .cpl .l (.dn 0) ∧
    decodeWord 0b100_10_011_1_10_10_100 = .wto (.dn 3) ∧ decodeWord 0b100_10_011_1_01_10_100 = .wtoGroup .l (.dn 3) ∧
    decodeWord 0b100_10_101_1_10_10_101 = .clr .q (.dn 5) ∧ decodeWord 0b100_10_000_1_00_10_110 = .asr .w (.dn 0) ∧
    decodeWord 0b100_10_000_1_00_10_111 = .lsr .w (.dn 0) := by decide

/-- 40_integer_ops.md R121 to R127. -/
theorem test_decode_integer :
    decodeWord 0b000_10_001_1_01_10_000 = .mov .l (.dn 1) (.dn 0) ∧ decodeWord 0b001_10_010_1_01_10_011 = .add .l (.dn 2) (.dn 3) ∧
    decodeWord 0b010_10_000_1_00_10_001 = .mll .w (.dn 0) (.dn 1) ∧ decodeWord 0b011_10_100_1_10_01_001 = .sub .q (.dn 4) (.mem 1) ∧
    decodeWord 0b101_10_000_1_01_10_001 = .and .l (.dn 0) (.dn 1) ∧ decodeWord 0b110_01_010_1_00_10_101 = .orr .w (.mem 2) (.dn 5) ∧
    decodeWord 0b111_10_111_1_10_10_111 = .xor .q (.dn 7) (.dn 7) := by decide

/-- 41_quick_ops.md R141 to R144, 42_quick_branches.md R152 to R155. -/
theorem test_decode_quick :
    decodeWord 0b000_10_000_0_01_00101 = .mvq .l (.dn 0) 5 ∧ decodeWord 0b001_00_000_0_01_00010 = .adq .l (.an 0) 2 ∧
    decodeWord 0b010_10_001_0_01_01010 = .mlq .l (.dn 1) 10 ∧ decodeWord 0b011_10_000_0_01_00001 = .sbq .l (.dn 0) 1 ∧
    decodeWord 0b100_10_000_0_01_00100 = .bpl .l (.dn 0) 4 ∧ decodeWord 0b101_01_000_0_00_11110 = .bmi .w (.mem 0) 30 ∧
    decodeWord 0b110_10_011_0_10_00001 = .bze .q (.dn 3) 1 ∧ decodeWord 0b111_10_000_0_01_11101 = .bnz .l (.dn 0) 29 := by
  decide

/-- The byte w[15:8] is first (30_encoding.md R81); a stream that ends inside the word is rejected by name. -/
theorem test_decode_bytes :
    decode [0x11, 0xB0, 0x55] = .ok (.mov .l (.dn 1) (.dn 0), [0x55]) ∧ decode [0x11] = .error .truncated := by decide

/-- The host's decoding of a table row: BRK 7 is 0xF8F8 (95_test_vectors.md S5). -/
theorem test_decode_table_word : decodeTableWord 16 0xF8F8 = some (.brk 7) := by decide

/-! ## Single steps -/

/-- The state of a next step, if there is one. -/
def after (o : Host.Outcome State Fault Refusal) : Option State :=
  match o with
  | .next t => some t
  | _ => none

/-- The step that runs the instruction of `bits` (first word lowest) in the reset state with D0 = x and D1 = y. -/
def run (bits : Nat) (x y : Quad) : Option State :=
  after (step (((State.reset.setD 0 x).setD 1 y).withFetchWord 80 bits))

/-- 40_integer_ops.md R121: MOV.L D1,D0. -/
theorem test_mov : (run 0x11B0 0x1111222233334444 0xAAAABBBBCCCCDDDD).map (·.getD 1) = some 0xAAAABBBB33334444 := by decide
/-- R121: MOV.W A0,D1 sign-extends (word 0000 0001 1001 0001). -/
theorem test_mov_an : (run 0x0091 0 0x8000).map (·.getA 0) = some 0xFFFFFFFFFFFF8000 := by decide
/-- 40_integer_ops.md R122: ADD.W D0,D1 wraps and leaves the upper bits. -/
theorem test_add : (run 0x3091 0x123456789ABCFFFF 1).map (·.getD 0) = some 0x123456789ABC0000 := by decide
/-- R123: MLL.W D0,D1 with 0x100 and 0x101. -/
theorem test_mll : (run 0x5091 0x0100 0x0101).map (·.getD 0) = some 0x0100 := by decide
/-- R124: SUB.W D0,D1 borrows inside 16 bits. -/
theorem test_sub : (run 0x7091 0 1).map (·.getD 0) = some 0xFFFF := by decide
/-- R125: AND.L D0,D1. -/
theorem test_and : (run 0xB0B1 0xFFFFFFFF0F0F0F0F 0x00FF00FF).map (·.getD 0) = some 0xFFFFFFFF000F000F := by decide
/-- 41_quick_ops.md R141: MVQ.L D0,#32. -/
theorem test_mvq : (run 0x1020 0xFFFFFFFFFFFFFFFF 0).map (·.getD 0) = some 0xFFFFFFFF00000020 := by decide
/-- R142: ADQ.W D0,#1 wraps. -/
theorem test_adq : (run 0x3001 0x1FFFF 0).map (·.getD 0) = some 0x10000 := by decide
/-- R144: SBQ.L D0,#1 from 0. -/
theorem test_sbq : (run 0x7021 0 0).map (·.getD 0) = some 0xFFFFFFFF := by decide
/-- R144: SBQ PC,#1 is a jump to itself (word 0111 1000 0000 0001). -/
theorem test_sbq_pc : (run 0x7801 0 0).map (·.pc) = some 0 := by decide
/-- 42_quick_branches.md R152: BPL.L D0,#+4 looks at bit 31 only. -/
theorem test_bpl_taken : (run 0x9024 0xFFFFFFFF7FFFFFFF 0).map (·.pc) = some 5 := by decide
theorem test_bpl_not_taken : (run 0x9024 0x80000000 0).map (·.pc) = some 1 := by decide
/-- R155: BNZ.L D0,#-300, long form with 0xFED4: 1 - 300 modulo 2^64. -/
theorem test_bnz_long : (run 0xFED4F03F 1 0).map (·.pc) = some 0xFFFFFFFFFFFFFED5 := by decide
theorem test_bnz_long_not_taken : (run 0xFED4F03F 0 0).map (·.pc) = some 2 := by decide
/-- 44_cfr.md R191 to R194. -/
theorem test_exh : (run 0x90A0 0x12345678 0).map (·.getD 0) = some 0x56781234 := by decide
theorem test_sxl : (run 0x90A1 0x12348678 0).map (·.getD 0) = some 0xFFFF8678 := by decide
theorem test_inu : (run 0x9182 0 0xFF34).map (·.getD 1) = some 0x0034 := by decide
theorem test_dcu : (run 0x9183 0 0x0034).map (·.getD 1) = some 0xFF34 := by decide
/-- 44_cfr.md R201, R206 to R208. -/
theorem test_abs : (run 0x9090 0xFFFE 0).map (·.getD 0) = some 2 := by decide
theorem test_abs_most_negative : (run 0x9090 0x8000 0).map (·.getD 0) = some 0x8000 := by decide
theorem test_asr : (run 0x9096 0x8001 0).map (·.getD 0) = some 0xC000 := by decide
theorem test_lsr : (run 0x9097 0x8001 0).map (·.getD 0) = some 0x4000 := by decide
/-- 44_cfr.md R184: PCX.Q (PC+)/(-SP), target 0x1234: the address after the immediate, 5, is pushed. -/
theorem test_pcx_call : (run 0x123400000000000099D8 0 0).map (fun t => (t.pc, t.sp, t.valueAt t.sp 4)) =
    some (0x1234, 0xFFFFFFFFFFFFFFFC, 5) := by decide
/-- 45_system_ops.md R266: SUP takes four words. -/
theorem test_sup : (run 0x00040003000200013CFA 0 0).map (fun t => (t.userPt, t.pc)) = some (0x0001000200030004, 5) := by
  decide
/-- 45_system_ops.md R267. -/
theorem test_ein : (run 0x5CFA 0 0).map (·.interruptEnable) = some true := by decide
/-- 30_encoding.md R102: MLL.L PC,PC is a NOP. -/
theorem test_nop : (run 0x58B8 0 0).map (·.pc) = some 1 := by decide
/-- 30_encoding.md R92, R95: MOV.L (+SP),D0 and ADD.L PC,(PC+) are refused. -/
theorem test_plus_write_form : step (State.reset.withFetchWord 16 0x1DB0) = .refused .plusWriteForm := by rfl
theorem test_same_pointer : step (State.reset.withFetchWord 16 0x38B9) = .refused .samePointerTwice := by rfl
/-- 60_exceptions.md R304: TRP 0. -/
theorem test_trp : step (State.reset.withFetchWord 16 0x1AF8) = .fault (.trap .trp 0) := by rfl
/-- 60_exceptions.md R301: EIN in user mode. -/
theorem test_ein_user : step ({ State.reset with mode := .user }.withFetchWord 16 0x5CFA) = .refused .privilege := by rfl

/-! ## States and operands that meet the hypotheses of the obligations -/

/-- Five words at PC = 0, the first a MOV.L D1,D0. -/
def bench : State := State.reset.withFetchWord 80 0x000400030002000111B0

/-- `bench` with the supervisor mode's fields. -/
def benchIn (m : Mode) : State := { bench with mode := m }

theorem test_meets_wf : (Instr.mov .q (.an 7) (.form .rpRp)).wf = true ∧ (Instr.bnz .l (.dn 0) 31).wf = true := by decide

theorem test_meets_StepRunsDecoded :
    bench.vmEnable = false ∧ bench.mapped bench.pc = true ∧ bench.memory.wordAt bench.pc = some 0x11B0 ∧
    bench.isStored bench.pc = false ∧ (Instr.mov .l (.dn 1) (.dn 0)).wf = true ∧
    (0x11B0 : Word) = encode (.mov .l (.dn 1) (.dn 0)) := by decide

/-- One state for each clause; the second's platform begins one word past PC. -/
theorem test_meets_StepStops :
    (State.reset.setVmEnable true).vmEnable = true ∧
    ({ State.reset with platform := [{ base := 1, words := 8 }] }.mapped 0 = false) ∧
    (State.reset.mapped State.reset.pc = true ∧ State.reset.memory.wordAt State.reset.pc = none) ∧
    ({ bench with stored := [0] }.isStored 0 = true ∧ ({ bench with stored := [0] }.memory.wordAt 0).isSome = true) := by
  decide

theorem test_meets_FetchByteOrder : fetch bench = .ok (0x11B0, bench.setPc 1) := by rfl

theorem test_meets_StoreToNextInstruction :
    (∃ t, exec (.mov .w (.mem 0) (.dn 0)) State.reset = .next t) ∧ State.reset.getA 0 = State.reset.pc := ⟨⟨_, rfl⟩, rfl⟩

/-- At 0 and at the last word address, where a 64-bit access wraps. -/
theorem test_meets_ReadAfterWrite :
    (∃ t, writeWords State.reset 0 (stepOf (sizeBits .w)) 7 = .ok t) ∧
    (∃ t, writeWords State.reset 0xFFFFFFFFFFFFFFFF (stepOf (sizeBits .q)) 7 = .ok t) := ⟨⟨_, rfl⟩, ⟨_, rfl⟩⟩

theorem test_meets_MixedWidthRead :
    (∃ t, writeWords State.reset 0xFFFFFFFFFFFFFFFF 4 7 = .ok t) ∧ 0 < 4 ∧ 3 < 4 := ⟨⟨_, rfl⟩, by decide, by decide⟩

/-- An instruction that completes, and one state for each stop: translation on; a platform that ends one word before the
last word of a 64-bit read at (A0); a valueless word behind a valued one; a push whose last word is unmapped; a stored word
in the immediate. -/
theorem test_meets_MemoryStops :
    (∃ t, exec (.mov .q (.dn 0) (.form .pcSp)) bench = .next t) ∧
    sourceAddress bench (.mem 0) = some 0 ∧ (State.reset.setVmEnable true).vmEnable = true ∧
    ({ bench with platform := [{ base := 0, words := 3 }] }.readable 0 3 ∧
      { bench with platform := [{ base := 0, words := 3 }] }.mapped 3 = false) ∧
    (bench.readable 4 1 ∧ bench.mapped 5 = true ∧ bench.memory.wordAt 5 = none) ∧
    (storeAddress bench (.form .pcSp) 32 = some 0xFFFFFFFFFFFFFFFE ∧
      { bench with platform := [{ base := 0, words := 2 ^ 64 - 1 }] }.writable 0xFFFFFFFFFFFFFFFE 1 ∧
      { bench with platform := [{ base := 0, words := 2 ^ 64 - 1 }] }.mapped 0xFFFFFFFFFFFFFFFF = false) ∧
    ({ bench with stored := [3] }.readable 0 4 ∧ { bench with stored := [3] }.isStored 3 = true) :=
  ⟨⟨_, rfl⟩, by decide⟩

theorem test_meets_ResetGiven : (1 : Fin 8) ≠ 0 ∧ (7 : Fin 8) ≠ 0 := by decide

theorem test_meets_StepKeepsInvariant : bench.Inv ∧ ∃ t, step bench = .next t :=
  ⟨⟨by decide, by decide, rfl, rfl, rfl⟩, ⟨_, rfl⟩⟩

/-- Also for the statement on what steps leave of the system state. -/
theorem test_meets_ModesConfineSteps :
    (∃ t, step (benchIn .user) = .next t) ∧ (benchIn .user).mode = .user ∧
    (∃ t, step (benchIn .supervisor) = .next t) ∧ (benchIn .supervisor).mode = .supervisor :=
  ⟨⟨_, rfl⟩, rfl, ⟨_, rfl⟩, rfl⟩

theorem test_meets_HiddenStateUnread : bench.visible = (bench.setUserPt 5).visible ∧ bench ≠ bench.setUserPt 5 := by decide

theorem test_meets_PcAdvance :
    (Instr.mov .q (.dn 0) (.form .pcSp)).wf = true ∧ mayJump (.mov .q (.dn 0) (.form .pcSp)) = false ∧
    ∃ t, exec (.mov .q (.dn 0) (.form .pcSp)) bench = .next t := ⟨rfl, rfl, ⟨_, rfl⟩⟩

theorem test_meets_OnlyWrittenOperandStores :
    (∃ t, exec (.add .w (.dn 0) (.mem 0)) bench = .next t) ∧
    written (.add .w (.dn 0) (.mem 0)) = some (.dn 0, 16) ∧ (∀ r, Operand.dn 0 ≠ .mem r) ∧
    (Operand.dn 0).isForm = false ∧ (∃ t, exec (.bze .w (.dn 0) 1) bench = .next t) ∧
    written (.bze .w (.dn 0) 1) = none := ⟨⟨_, rfl⟩, rfl, by simp, rfl, ⟨_, rfl⟩, rfl⟩

/-- A memory source with D0 changed above bit 15, and a source A1 changed above bit 15. -/
theorem test_meets_DataRegisterModuloSize :
    (written (.add .w (.dn 0) (.mem 0)) = some (.dn 0, 16) ∧ (∃ t, exec (.add .w (.dn 0) (.mem 0)) bench = .next t) ∧
      (∀ q : RegNum, (bench.getD q).toNat % 2 ^ 16 = (bench.d.set 0 0x10000)[q].toNat % 2 ^ 16) ∧
      bench.registerOf (sourceOf (.add .w (.dn 0) (.mem 0))) = none ∧
      ∃ u, exec (.add .w (.dn 0) (.mem 0)) { bench with d := bench.d.set 0 0x10000 } = .next u) ∧
    (bench.registerOf (sourceOf (.add .w (.dn 0) (.an 1))) = some 0 ∧
      (0 : Quad).toNat % 2 ^ 16 = (0xFFFFFFFFFFFF0000 : Quad).toNat % 2 ^ 16 ∧
      ∃ u, exec (.add .w (.dn 0) (.an 1)) (bench.withRegister (some (.an 1)) 0xFFFFFFFFFFFF0000) = .next u) :=
  ⟨⟨rfl, ⟨_, rfl⟩, by decide, rfl, ⟨_, rfl⟩⟩, ⟨rfl, by decide, ⟨_, rfl⟩⟩⟩

/-- 30_encoding.md R104: the source immediate of CFR.Q, the destination-read immediate of ADU.L, none for CLR.L;
the d64 and d32 of the @ forms, after a source immediate if there is one. -/
theorem test_following_words :
    followingWords (.cfr .q (.dn 0) (.form .pcSp)) = 4 ∧ followingWords (.adu .l (.form .pcSp)) = 2 ∧
    followingWords (.clr .l (.form .pcSp)) = 0 ∧ followingWords (.atBrk 0 (.dn 0)) = 4 ∧
    followingWords (.atCiv 0 (.form .pcSp)) = 8 ∧ followingWords (.atCom 0 (.form .spSp)) = 2 ∧
    followingWords (.atCom 0 (.form .pcSp)) = 4 := by decide

theorem test_meets_PointerClashes : Operand.form .pcSp ≠ .form .spSp ∧ Operand.form .pcSp ≠ .form .rpRp := by decide

theorem test_meets_SamePointerRefused :
    (Operand.form .pcSp, Operand.form .spSp) ∈ writeClashes ∧ (Operand.special .pc, Operand.form .pcSp) ∈ readClashes := by
  decide

theorem test_meets_PlusWriteRefused :
    (Form.spSp = .spSp ∨ Form.spSp = .rpRp) ∧ (Form.rpRp = .spSp ∨ Form.rpRp = .rpRp) := by decide

/-- A push of an immediate, and a 64-bit load from A0 to A1. -/
theorem test_meets_MovResult :
    moveReady bench (.form .pcSp) (.form .pcSp) 64 ∧ moveReady bench (.an 1) (.mem 0) 64 :=
  ⟨⟨rfl, by show bench.streamable 4; decide, by show State.writable _ _ 4; decide⟩,
    ⟨rfl, by show bench.readable _ 4; decide, rfl⟩⟩

/-- For the arithmetic, logic and float results: memory destination, stacked source, register operands. -/
theorem test_meets_modify :
    modifyReady bench (.mem 0) (.form .spSp) 32 ∧ modifyReady bench (.dn 0) (.dn 1) 64 :=
  ⟨⟨rfl, by show bench.readable _ 2; decide, by show State.readable _ _ 2; decide, by show State.writable _ _ 2; decide⟩,
    ⟨rfl, trivial, trivial, rfl⟩⟩

/-- For the frames of two-operand instructions. -/
theorem test_meets_frames :
    (∃ t, exec (.mov .l (.mem 0) (.form .spSp)) bench = .next t) ∧ (∃ t, exec (.xor .l (.mem 0) (.form .spSp)) bench = .next t) ∧
    (∃ t, exec (.fad .float (.mem 0) (.dn 1)) bench = .next t) := ⟨⟨_, rfl⟩, ⟨_, rfl⟩, ⟨_, rfl⟩⟩

theorem test_meets_PushThenPop : ∃ t, exec (.mov .q (.form .pcSp) (.dn 0)) bench = .next t := ⟨_, rfl⟩

/-- For the quick results and FCN: a push, a register; an immediate read and then pushed. -/
theorem test_meets_QuickResult :
    writeReady bench (.form .pcSp) 64 ∧ updateReady bench (.form .pcSp) 64 ∧ updateReady bench (.an 7) 16 :=
  ⟨by show bench.writable _ 4; decide, ⟨by show bench.streamable 4; decide, by show State.writable _ _ 4; decide⟩,
    ⟨trivial, rfl⟩⟩

theorem test_meets_QuickFrame :
    (∃ t, exec (.mvq .w (.form .ipRp) 0) bench = .next t) ∧ (∃ t, exec (.sbq .q (.an 0) 31) bench = .next t) :=
  ⟨⟨_, rfl⟩, ⟨_, rfl⟩⟩

/-- For the integer and float branches: short form on a register, long forms of both signs, a popped operand. -/
theorem test_meets_BranchResult :
    branchReady bench (.dn 0) 64 15 ∧ branchReady bench (.dn 0) 32 0 ∧ branchReady bench (.form .spSp) 32 31 :=
  ⟨⟨by decide, trivial, fun h => absurd h (by decide)⟩,
    ⟨by decide, trivial, fun _ => by show bench.streamable 1; decide⟩,
    ⟨by decide, by show bench.readable _ 2; decide, fun _ => by show State.streamable _ 1; decide⟩⟩

theorem test_meets_BranchFrame :
    (∃ t, exec (.bpl .l (.form .spSp) 31) bench = .next t) ∧ (∃ t, exec (.fbp .double (.dn 0) 2) bench = .next t) :=
  ⟨⟨_, rfl⟩, ⟨_, rfl⟩⟩

theorem test_meets_FloatConstant :
    writeReady bench (.dn 0) 32 ∧ ∃ t, exec (.fcn 0 .float (.dn 0) .pc) bench = .next t := ⟨rfl, ⟨_, rfl⟩⟩

theorem test_meets_ExchangeResult :
    opWidth (.form .pcSp) (sizeBits .q) = 64 ∧ updateReady bench (.form .pcSp) 64 ∧ opWidth (.an 0) (sizeBits .w) = 64 ∧
    updateReady bench (.an 0) 16 ∧ (Operand.an 0) ≠ .form .pcSp ∧ (Operand.an 0) ≠ .form .ipRp :=
  ⟨rfl, ⟨by show bench.streamable 4; decide, by show State.writable _ _ 4; decide⟩, rfl, ⟨trivial, rfl⟩, by decide, by decide⟩

theorem test_meets_ExchangeFrame :
    (∃ t, exec (.pcx .q (.form .pcSp)) bench = .next t) ∧ (∃ t, exec (.rpx .w (.an 0)) bench = .next t) :=
  ⟨⟨_, rfl⟩, ⟨_, rfl⟩⟩

theorem test_meets_NarrowRefused :
    Size.w ≠ .q ∧ (∀ r, Operand.dn 0 ≠ .an r) ∧ (Operand.dn 0).isSpecial = false ∧ Operand.dn 0 ≠ .form .spSp ∧
    Operand.dn 0 ≠ .form .rpRp := ⟨by decide, by simp, rfl, by decide, by decide⟩

/-- For the subroutine call, the threaded call and the page-table pointers. -/
theorem test_meets_calls :
    bench.streamable 4 ∧ bench.writable (bench.sp - 4) 4 ∧ bench.readable bench.ip 4 ∧ bench.writable (bench.rp - 4) 4 := by
  decide

/-- For the halves and fulls results, at a memory operand and at An. -/
theorem test_meets_unary :
    opWidth (.mem 0) (sizeBits .w) = sizeBits .w ∧ updateReady bench (.mem 0) 16 ∧ opWidth (.an 0) (sizeBits .q) = sizeBits .q ∧
    updateReady bench (.an 0) 64 ∧ writeReady bench (.mem 0) 16 :=
  ⟨rfl, ⟨by show bench.readable _ 1; decide, by show State.writable _ _ 1; decide⟩, rfl, ⟨trivial, rfl⟩,
    by show State.writable _ _ 1; decide⟩

theorem test_meets_UnaryFrame :
    (∃ t, exec (.abs .w (.mem 0)) bench = .next t) ∧ (∃ t, exec (.clr .w (.form .pcSp)) bench = .next t) :=
  ⟨⟨_, rfl⟩, ⟨_, rfl⟩⟩

/-- For the statements about modes. -/
theorem test_meets_modes :
    (benchIn .user).mode = .user ∧ (benchIn .user).mode ≠ .hypervisor ∧ (benchIn .supervisor).mode ≠ .user ∧
    (benchIn .supervisor).mode ≠ .hypervisor ∧ (benchIn .hypervisor).mode = .hypervisor ∧
    (benchIn .hypervisor).vmEnable = false := by decide

end Sys2Proof.Machine
end

section
/-! SUPPORT. The meanings of the 108 instructions as data: each is one of the templates of Machine/Templates.lean, or a
stop, with or without a privilege check. What holds of every instruction is then proved over the templates. -/

namespace Sys2Proof.Machine

/-! ## Templates as data -/

/-- The width of an operand: a size of the integer instructions or a precision of the float ones. -/
inductive Width where
  | int (z : Size)
  | float (p : Precision)

/-- The number of bits of a width. -/
def Width.bits (w : Width) : Nat :=
  match w with
  | .int z => sizeBits z
  | .float p => precisionBits p

/-- The operation width at a destination: An and special direct are 64 bits wide for the integer instructions only
(30_encoding.md R93, 43_float_ops.md R160). -/
def Width.opw (w : Width) (dst : Operand) : Nat :=
  match w with
  | .int z => opWidth dst (sizeBits z)
  | .float p => precisionBits p

theorem Width.stepOf_bits_pos (w : Width) : 0 < stepOf w.bits :=
  match w with
  | .int z => stepOf_sizeBits_pos z
  | .float p => stepOf_precisionBits_pos p

/-- What an instruction can mean: a template of Machine/Templates.lean with its parameters, a stop, a change of control
state, or one of these behind a privilege check. -/
inductive Template where
  | stop (e : Stop)
  | nop
  | move (z : Size) (dst src : Operand)
  | modify (f : Quad → Quad → Quad) (w : Width) (dst src : Operand)
  | set (v : Quad) (w : Width) (dst : Operand)
  | clear (z : Size) (dst : Operand)
  | quick (f : Quad → Quad → Quad) (z : Size) (dst : Operand) (q : Quick)
  | unary (f : Nat → Quad → Quad) (z : Size) (dst : Operand)
  | exchange (x : Special) (z : Size) (dst : Operand)
  | branch (cond : Quad → Bool) (w : Width) (dst : Operand) (q : Quick)
  | loadUserPt
  | loadSuperPt
  | setInterrupts (v : Bool)
  | endTranslation
  | privileged (m : Mode) (body : Template)

namespace Template

/-- Carry out a template. -/
def run (p : Template) (s : State) : Except Stop State :=
  match p with
  | stop e => .error e
  | nop => nopOp s
  | move z dst src => moveOp (sizeBits z) (opWidth dst (sizeBits z)) dst src s
  | modify f w dst src => modifyOp f w.bits (w.opw dst) dst src s
  | set v w dst => setOp v w.bits (w.opw dst) dst s
  | clear z dst => do checkUnaryWidth (sizeBits z) dst; setOp 0 (sizeBits z) (sizeBits z) dst s
  | quick f z dst q => quickOp f (sizeBits z) (opWidth dst (sizeBits z)) dst q s
  | unary f z dst => unaryOp f (sizeBits z) dst s
  | exchange x z dst => exchangeOp x (sizeBits z) dst s
  | branch cond w dst q => branchOp cond w.bits (w.opw dst) dst q s
  | loadUserPt => do
    let (v, s1) ← streamRead s 4
    .ok (s1.setUserPt v)
  | loadSuperPt => do
    let (v, s1) ← streamRead s 4
    .ok (s1.setSuperPt v)
  | setInterrupts v => .ok (s.setInterruptEnable v)
  | endTranslation => .ok (s.setVmEnable false)
  | privileged m body => Machine.privileged m s (body.run s)

/-- The template stops in every state. -/
def stops (p : Template) : Bool :=
  match p with
  | stop _ => true
  | privileged _ body => body.stops
  | nop | move .. | modify .. | set .. | clear .. | quick .. | unary .. | exchange .. | branch .. | loadUserPt
  | loadSuperPt | setInterrupts .. | endTranslation => false

/-- The operand that a template writes, with its width. -/
def written (p : Template) : Option (Operand × Nat) :=
  match p with
  | move z dst _ | clear z dst | quick _ z dst _ | unary _ z dst | exchange _ z dst => some (dst, sizeBits z)
  | modify _ w dst _ | set _ w dst => some (dst, w.bits)
  | privileged _ body => body.written
  | stop .. | nop | branch .. | loadUserPt | loadSuperPt | setInterrupts .. | endTranslation => none

/-- The operand that a template reads beside its destination. -/
def source (p : Template) : Option Operand :=
  match p with
  | move _ _ src | modify _ _ _ src => some src
  | exchange x _ _ => some (.special x)
  | privileged _ body => body.source
  | stop .. | nop | set .. | clear .. | quick .. | unary .. | branch .. | loadUserPt | loadSuperPt | setInterrupts ..
  | endTranslation => none

/-- The template can set PC to something other than the next word of the stream. -/
def jumps (p : Template) : Bool :=
  match p with
  | move _ dst _ | modify _ _ dst _ | set _ _ dst | clear _ dst | quick _ _ dst _ | unary _ _ dst => dst.isPc
  | exchange x _ dst => x == .pc || dst.isPc
  | branch .. => true
  | privileged _ body => body.jumps
  | stop .. | nop | loadUserPt | loadSuperPt | setInterrupts .. | endTranslation => false

/-- The words of the instruction stream that a template takes. -/
def words (p : Template) : Nat :=
  match p with
  | move z _ src => immediateWords src (sizeBits z)
  | modify _ w dst src => immediateWords src w.bits + immediateWords dst w.bits
  | quick _ z dst _ | unary _ z dst | exchange _ z dst => immediateWords dst (sizeBits z)
  | branch _ w dst q => immediateWords dst w.bits + d16Words q
  | loadUserPt | loadSuperPt => 4
  | privileged _ body => body.words
  | stop .. | nop | set .. | clear .. | setInterrupts .. | endTranslation => 0

end Template

/-! ## The template of each instruction -/

/-- The template of an instruction, in the order of `exec`. -/
def templateOf (i : Instr) : Template :=
  match i with
  | .brk m => .stop (.fault (.trap .brk m))
  | .trp m => .stop (.fault (.trap .trp m))
  | .hpr m => .privileged .supervisor (.stop (.fault (.trap .hpr m)))
  | .civ _ => .stop (.refused .civUnspecified)
  | .reserved _ | .systemDesign _ | .reservedExtension _ _ _ | .reservedVectorPrefix _ _ _ => .stop (.refused .reserved)
  | .snp => .privileged .supervisor .nop
  | .sup => .privileged .supervisor .loadUserPt
  | .ein => .privileged .supervisor (.setInterrupts true)
  | .din => .privileged .supervisor (.setInterrupts false)
  | .wti => .privileged .supervisor (.stop (.refused .wti))
  | .cls => .privileged .supervisor (.stop (.refused .trapReturnUnspecified))
  | .rss => .privileged .supervisor (.stop (.refused .resetUnspecified))
  | .sil => .privileged .supervisor (.stop (.fault (.illegal .sil)))
  | .hnp => .privileged .hypervisor .nop
  | .ssp => .privileged .hypervisor .loadSuperPt
  | .evm => .privileged .hypervisor (.stop (.refused .translationUnspecified))
  | .dvm => .privileged .hypervisor .endTranslation
  | .cli => .privileged .hypervisor (.stop (.refused .interruptsUnspecified))
  | .clh => .privileged .hypervisor (.stop (.refused .trapReturnUnspecified))
  | .rsh => .privileged .hypervisor (.stop (.refused .resetUnspecified))
  | .hil => .privileged .hypervisor (.stop (.fault (.illegal .hil)))
  | .com _ | .atCom _ _ => .stop (.refused .com)
  | .userExtension _ _ => .nop
  | .atBrk _ _ => .stop (.refused .atFormUnspecified)
  | .atTrp _ _ => .privileged .supervisor (.stop (.refused .atFormUnspecified))
  | .atHvr _ _ | .atCiv _ _ => .privileged .hypervisor (.stop (.refused .atFormUnspecified))
  | .fcn op p dst src => .set (Config.fnumConst p op src) (.float p) dst
  | .fdv p dst src => .modify (Config.fnumDiv p) (.float p) dst src
  | .fad p dst src => .modify (Config.fnumAdd p) (.float p) dst src
  | .fml p dst src => .modify (Config.fnumMul p) (.float p) dst src
  | .fsb p dst src => .modify (Config.fnumSub p) (.float p) dst src
  | .fbp p dst q => .branch (Config.fnumIsPlus p) (.float p) dst q
  | .fbm p dst q => .branch (Config.fnumIsMinus p) (.float p) dst q
  | .fbd p dst q => .branch (Config.fnumIsDenormalOrZero p) (.float p) dst q
  | .fbi p dst q => .branch (Config.fnumIsInfinity p) (.float p) dst q
  | .mllNopDstRefused _ _ | .andNopDstRefused _ _ | .orrNopDstRefused _ _ | .xorNopDstRefused _ _
  | .mllNopSrcRefused _ _ | .andNopSrcRefused _ _ | .orrNopSrcRefused _ _ | .xorNopSrcRefused _ _
  | .bplNopZeroRefused _ | .bmiNopZeroRefused _ | .bzeNopZeroRefused _ | .bnzNopZeroRefused _
  | .bplNopMinusRefused _ | .bmiNopMinusRefused _ | .bzeNopMinusRefused _ | .bnzNopMinusRefused _ =>
    .stop (.refused .nopWithSideEffect)
  | .mllNopDst _ _ | .andNopDst _ _ | .orrNopDst _ _ | .xorNopDst _ _
  | .mllNopSrc _ _ | .andNopSrc _ _ | .orrNopSrc _ _ | .xorNopSrc _ _
  | .mlqNop _ _ | .bplNop _ _ | .bmiNop _ _ | .bzeNop _ _ | .bnzNop _ _ | .halvesNop _ _ | .fullsNop _ _ => .nop
  | .pcx z dst => .exchange .pc z dst
  | .ipx z dst => .exchange .ip z dst
  | .spx z dst => .exchange .sp z dst
  | .rpx z dst => .exchange .rp z dst
  | .exh z dst => .unary exchangeHalves z dst
  | .sxl z dst => .unary signExtendLow z dst
  | .inu z dst => .unary increaseUpper z dst
  | .dcu z dst => .unary decreaseUpper z dst
  | .slt _ _ => .stop (.refused .sltUnspecified)
  | .srt _ _ => .stop (.refused .srtUnspecified)
  | .adu _ _ => .stop (.refused .aduUnspecified)
  | .sbu _ _ => .stop (.refused .sbuUnspecified)
  | .wto _ => .stop (.refused .wtoUnspecified)
  | .wtoGroup _ _ => .stop (.refused .unassigned)
  | .abs z dst => .unary absolute z dst
  | .sgn z dst => .unary signOf z dst
  | .not _ _ => .stop (.refused .notUnspecified)
  | .cpl _ _ => .stop (.refused .cplUnspecified)
  | .clr z dst => .clear z dst
  | .asr z dst => .unary arithmeticShiftRight z dst
  | .lsr z dst => .unary logicShiftRight z dst
  | .cfr _ _ _ => .stop (.refused .cfrUnspecified)
  | .mov z dst src => .move z dst src
  | .add z dst src => .modify (fun a b => a + b) (.int z) dst src
  | .mll z dst src => .modify (fun a b => a * b) (.int z) dst src
  | .sub z dst src => .modify (fun a b => a - b) (.int z) dst src
  | .and z dst src => .modify (fun a b => a &&& b) (.int z) dst src
  | .orr z dst src => .modify (fun a b => a ||| b) (.int z) dst src
  | .xor z dst src => .modify (fun a b => a ^^^ b) (.int z) dst src
  | .mvq z dst q => .set (quickConstant q) (.int z) dst
  | .adq z dst q => .quick (fun a b => a + b) z dst q
  | .mlq z dst q => .quick (fun a b => a * b) z dst q
  | .sbq z dst q => .quick (fun a b => a - b) z dst q
  | .bpl z dst q => .branch (condPlus (opWidth dst (sizeBits z))) (.int z) dst q
  | .bmi z dst q => .branch (condMinus (opWidth dst (sizeBits z))) (.int z) dst q
  | .bze z dst q => .branch (condZero (opWidth dst (sizeBits z))) (.int z) dst q
  | .bnz z dst q => .branch (condNotZero (opWidth dst (sizeBits z))) (.int z) dst q

/-- The meaning of an instruction is its template, carried out. -/
theorem exec_eq_run (i : Instr) (s : State) : exec i s = finish ((templateOf i).run s) := by
  cases i <;> rfl

theorem exec_eq_next (i : Instr) (s t : State) : exec i s = .next t ↔ (templateOf i).run s = .ok t := by
  rw [exec_eq_run, finish_eq_next]

/-! The properties of instructions that Safety.lean names are those of their templates. -/

theorem written_eq (i : Instr) : written i = (templateOf i).written := by
  cases i <;> rfl

theorem sourceOf_eq (i : Instr) : sourceOf i = (templateOf i).source := by
  cases i <;> rfl

theorem mayJump_eq (i : Instr) : mayJump i = (templateOf i).jumps := by
  cases i <;> rfl

/-- The instructions with an immediate that no template takes are refused ones. -/
theorem followingWords_eq (i : Instr) (h : (templateOf i).stops = false) :
    followingWords i = (templateOf i).words := by
  cases i with
  | atBrk | atTrp | atHvr | atCiv | atCom | slt | srt | adu | sbu | not | cpl | cfr => cases h
  | _ => rfl

/-! ## What a template that answers has done -/

namespace Template

/-- The value that a template writes to its destination. -/
def result (p : Template) (s : State) : Quad :=
  match p with
  | move z dst src => widen (opWidth dst (sizeBits z)) (sizeBits z) (srcValue s src (sizeBits z))
  | modify f w dst src =>
    low (w.opw dst)
      (f (dstValue (srcState s src w.bits) dst w.bits (w.opw dst)) (widen (w.opw dst) w.bits (srcValue s src w.bits)))
  | set v w dst => low (w.opw dst) v
  | clear z _ => low (sizeBits z) 0
  | quick f z dst q =>
    low (opWidth dst (sizeBits z)) (f (dstValue s dst (sizeBits z) (opWidth dst (sizeBits z))) (quickConstant q))
  | unary f z dst => low (sizeBits z) (f (sizeBits z) (dstValue s dst (sizeBits z) (sizeBits z)))
  | exchange x z dst => (dstState s dst (sizeBits z)).getSpecial x
  | privileged _ body => body.result s
  | stop .. | nop | branch .. | loadUserPt | loadSuperPt | setInterrupts .. | endTranslation => 0

/-- The state after a template that answers; the same state for one that stops. -/
def after (p : Template) (s : State) : State :=
  match p with
  | stop _ | nop => s
  | move z dst src =>
    writeState (srcState s src (sizeBits z)) dst (sizeBits z) (opWidth dst (sizeBits z)) ((move z dst src).result s)
  | modify f w dst src =>
    writeState (modifyAt s dst src w.bits) dst w.bits (w.opw dst) ((modify f w dst src).result s)
  | set v w dst => writeState s dst w.bits (w.opw dst) ((set v w dst).result s)
  | clear z dst => writeState s dst (sizeBits z) (sizeBits z) ((clear z dst).result s)
  | quick f z dst q =>
    writeState (dstState s dst (sizeBits z)) dst (sizeBits z) (opWidth dst (sizeBits z)) ((quick f z dst q).result s)
  | unary f z dst =>
    writeState (dstState s dst (sizeBits z)) dst (sizeBits z) (sizeBits z) ((unary f z dst).result s)
  | exchange x z dst =>
    (writeState (dstState s dst (sizeBits z)) dst (sizeBits z) (opWidth dst (sizeBits z))
      ((exchange x z dst).result s)).setSpecial x (dstValue s dst (sizeBits z) (opWidth dst (sizeBits z)))
  | branch cond w dst q => branchState cond s dst w.bits (w.opw dst) q
  | loadUserPt => (s.setPc (s.pc + 4)).setUserPt (s.valueAt s.pc 4)
  | loadSuperPt => (s.setPc (s.pc + 4)).setSuperPt (s.valueAt s.pc 4)
  | setInterrupts v => s.setInterruptEnable v
  | endTranslation => s.setVmEnable false
  | privileged _ body => body.after s

/-- A template that answers is no stop and answers the state that `after` describes. -/
theorem run_ok {p : Template} {s t : State} (h : p.run s = .ok t) : p.stops = false ∧ t = p.after s := by
  induction p with
  | stop e => cases h
  | nop => exact ⟨rfl, (Except.ok.inj h).symm⟩
  | move z dst src => exact ⟨rfl, (moveOp_ok (stepOf_sizeBits_pos z) h).2⟩
  | modify f w dst src => exact ⟨rfl, (modifyOp_ok w.stepOf_bits_pos h).2⟩
  | set v w dst => exact ⟨rfl, (setOp_ok w.stepOf_bits_pos h).2⟩
  | clear z dst =>
    obtain ⟨⟨⟩, _, hset⟩ := (bind_eq_ok _ _ _).1 h
    exact ⟨rfl, (setOp_ok (stepOf_sizeBits_pos z) hset).2⟩
  | quick f z dst q => exact ⟨rfl, (quickOp_ok (stepOf_sizeBits_pos z) h).2⟩
  | unary f z dst => exact ⟨rfl, (unaryOp_ok (stepOf_sizeBits_pos z) h).2.2⟩
  | exchange x z dst => exact ⟨rfl, (exchangeOp_ok (stepOf_sizeBits_pos z) h).2.2⟩
  | branch cond w dst q => exact ⟨rfl, (branchOp_ok w.stepOf_bits_pos h).2⟩
  | loadUserPt | loadSuperPt =>
    obtain ⟨⟨v, s1⟩, hread, hset⟩ := (bind_eq_ok _ _ _).1 h
    obtain ⟨_, rfl, rfl⟩ := (streamRead_eq_ok _ _ _ (by decide) _).1 hread
    exact ⟨rfl, (Except.ok.inj hset).symm⟩
  | setInterrupts v => exact ⟨rfl, (Except.ok.inj h).symm⟩
  | endTranslation => exact ⟨rfl, (Except.ok.inj h).symm⟩
  | privileged m body ih => exact ih ((privileged_eq_ok m s t _).1 h).2

end Template

/-- An instruction that completes leads to the state its template describes. -/
theorem exec_next {i : Instr} {s t : State} (h : exec i s = .next t) :
    (templateOf i).stops = false ∧ t = (templateOf i).after s :=
  Template.run_ok ((exec_eq_next i s t).1 h)

/-- A step that answers has fetched a word and completed its instruction with PC past the word (10_state.md R25). -/
theorem step_next {s t : State} (h : step s = .next t) :
    s.streamable 1 ∧ exec (decodeWord (s.wordOrZero s.pc)) (s.setPc (s.pc + 1)) = .next t := by
  unfold step at h
  split at h
  · next w s1 hf =>
    obtain ⟨hs, rfl, rfl⟩ := (fetch_eq_ok _ _ _).1 hf
    exact ⟨hs, h⟩
  · cases h
  · cases h

end Sys2Proof.Machine
end

section
/-! SUPPORT. What no step changes (O16): a projection of the state to the fields that no meaning writes, which every
operation leaves alone. -/

namespace Sys2Proof.Machine

/-- The fields that no meaning writes, in a state that is otherwise the one after reset. -/
def State.systemPart (s : State) : State :=
  { State.reset with
    mode := s.mode, interruptPending := s.interruptPending
    brkVector := s.brkVector, trpVector := s.trpVector, hvrVector := s.hvrVector, civVector := s.civVector
    comTable := s.comTable, profile := s.profile, special := s.special
    wtoTarget := s.wtoTarget, comPosition := s.comPosition, platform := s.platform }

/-- States with one system part agree in every field of it. -/
theorem sameSystem_of_systemPart_eq {s t : State} (h : t.systemPart = s.systemPart) :
    SameSystem s t ∧ t.mode = s.mode ∧ t.interruptPending = s.interruptPending := by
  have field {α : Type} (f : State → α) : f t.systemPart = f s.systemPart := congrArg f h
  exact ⟨⟨field State.brkVector, field State.trpVector, field State.hvrVector, field State.civVector,
    field State.comTable, field State.profile, field State.special, field State.wtoTarget, field State.comPosition,
    field State.platform⟩, field State.mode, field State.interruptPending⟩

section Updates

variable (s : State)

@[simp] theorem State.systemPart_setA (r : RegNum) (v : Quad) : (s.setA r v).systemPart = s.systemPart := rfl
@[simp] theorem State.systemPart_setD (r : RegNum) (v : Quad) : (s.setD r v).systemPart = s.systemPart := rfl
@[simp] theorem State.systemPart_setPc (v : Quad) : (s.setPc v).systemPart = s.systemPart := rfl
@[simp] theorem State.systemPart_setInterruptEnable (v : Bool) :
    (s.setInterruptEnable v).systemPart = s.systemPart := rfl
@[simp] theorem State.systemPart_setVmEnable (v : Bool) : (s.setVmEnable v).systemPart = s.systemPart := rfl
@[simp] theorem State.systemPart_setUserPt (v : Quad) : (s.setUserPt v).systemPart = s.systemPart := rfl
@[simp] theorem State.systemPart_setSuperPt (v : Quad) : (s.setSuperPt v).systemPart = s.systemPart := rfl

@[simp] theorem State.systemPart_setSpecial (x : Special) (v : Quad) :
    (s.setSpecial x v).systemPart = s.systemPart := by
  cases x <;> rfl

@[simp] theorem State.systemPart_storeWords (x : Quad) (k : Nat) (v : Quad) :
    (s.storeWords x k v).systemPart = s.systemPart := by
  rw [State.storeWords_eq]; rfl

end Updates

@[simp] theorem systemPart_srcState (s : State) (src : Operand) (n : Nat) :
    (srcState s src n).systemPart = s.systemPart := by
  cases src with
  | form f => exact State.systemPart_setSpecial _ _ _
  | _ => rfl

@[simp] theorem systemPart_dstState (s : State) (dst : Operand) (n : Nat) :
    (dstState s dst n).systemPart = s.systemPart := by
  cases dst with
  | form f => exact State.systemPart_setSpecial _ _ _
  | _ => rfl

@[simp] theorem systemPart_writeState (s : State) (dst : Operand) (n opw : Nat) (v : Quad) :
    (writeState s dst n opw v).systemPart = s.systemPart := by
  cases dst with
  | form f => cases f <;> simp [writeState, writePointer]
  | _ => simp [writeState]

@[simp] theorem systemPart_branchState (cond : Quad → Bool) (s : State) (dst : Operand) (n opw : Nat) (q : Quick) :
    (branchState cond s dst n opw q).systemPart = s.systemPart := by
  have hdisplacement (u : State) : (displacementState u q).systemPart = u.systemPart := by
    unfold displacementState
    split <;> simp
  unfold branchState
  split <;> simp [hdisplacement]

theorem Template.systemPart_after (p : Template) (s : State) : (p.after s).systemPart = s.systemPart := by
  induction p with
  | privileged m body ih => exact ih
  | _ => simp [Template.after, modifyAt]

/-- Settles O16: the fetch moves PC, and no template touches the system part. -/
theorem stepKeepsSystem : Obligations.StepKeepsSystem := by
  intro s t hstep
  obtain ⟨_, hexec⟩ := step_next hstep
  obtain ⟨_, rfl⟩ := exec_next hexec
  exact sameSystem_of_systemPart_eq (Template.systemPart_after _ _)

end Sys2Proof.Machine
end

section
/-! SUPPORT. What no step reads (O18): every operation commutes with `State.visible`, which hides the state that no
instruction reads. The control instructions, which write some of it, do so up to what they write. -/

namespace Sys2Proof.Machine

/-- Two operations in sequence commute with maps of their answers if both do. -/
theorem bind_map_eq {α β : Type} {g : α → α} {g' : β → β} {x x' : Except Stop α} {f f' : α → Except Stop β}
    (hx : x' = x.map g) (hf : ∀ a, f' (g a) = (f a).map g') : (x' >>= f') = (x >>= f).map g' := by
  subst hx
  cases x with
  | error e => rfl
  | ok a => exact hf a

/-- A sequence commutes with a map of its answer if its second operation does. -/
theorem bind_map_same {α β : Type} {g : β → β} (x : Except Stop α) {f f' : α → Except Stop β}
    (hf : ∀ a, f' a = (f a).map g) : (x >>= f') = (x >>= f).map g := by
  cases x with
  | error e => rfl
  | ok a => exact hf a

/-- A value and a state with what no instruction reads hidden. -/
def visibleSnd {α : Type} (a : α × State) : α × State := (a.1, a.2.visible)

theorem State.setSpecial_visible (s : State) (x : Special) (v : Quad) :
    s.visible.setSpecial x v = (s.setSpecial x v).visible := by
  cases x <;> rfl

@[simp] theorem State.getSpecial_visible (s : State) (x : Special) : s.visible.getSpecial x = s.getSpecial x := by
  cases x <;> rfl

/-! ## Memory and operands -/

@[simp] theorem readWords_visible (s : State) (x : Quad) (k : Nat) : readWords s.visible x k = readWords s x k := by
  induction k with
  | zero => rfl
  | succ k ih => rw [readWords, ih]; rfl

theorem writeWords_visible (s : State) (x : Quad) (k : Nat) (v : Quad) :
    writeWords s.visible x k v = (writeWords s x k v).map State.visible := by
  induction k generalizing v with
  | zero => rfl
  | succ k ih =>
    rw [writeWords, writeWords]
    refine bind_map_eq (ih _) fun t => ?_
    exact bind_map_same (checkAccess t _) fun _ => rfl

@[simp] theorem State.anyStored_visible (s : State) (x : Quad) (k : Nat) :
    s.visible.anyStored x k = s.anyStored x k := by
  induction k with
  | zero => rfl
  | succ k ih => rw [State.anyStored, ih]; rfl

theorem streamRead_visible (s : State) (k : Nat) : streamRead s.visible k = (streamRead s k).map visibleSnd := by
  have hpc : s.visible.pc = s.pc := rfl
  unfold streamRead
  rw [hpc, readWords_visible, State.anyStored_visible]
  refine bind_map_same _ fun v => ?_
  split <;> rfl

theorem readForm_visible (s : State) (f : Form) (n : Nat) :
    readForm s.visible f n = (readForm s f n).map visibleSnd := by
  cases f with
  | pcSp => exact streamRead_visible s _
  | ipRp | spSp | rpRp =>
    simp only [readForm, readPointer, readWords_visible, State.getSpecial_visible, State.setSpecial_visible]
    exact bind_map_same _ fun _ => rfl

theorem readSrc_visible (s : State) (src : Operand) (n : Nat) :
    readSrc s.visible src n = (readSrc s src n).map visibleSnd := by
  cases src with
  | an r | dn r => rfl
  | special x => simp only [readSrc, State.getSpecial_visible]; rfl
  | mem r =>
    simp only [readSrc, readWords_visible]
    exact bind_map_same _ fun _ => rfl
  | form f => exact readForm_visible s f n

theorem readDst_visible (s : State) (dst : Operand) (n opw : Nat) :
    readDst s.visible dst n opw = (readDst s dst n opw).map visibleSnd := by
  cases dst with
  | an r | dn r => rfl
  | special x => simp only [readDst, State.getSpecial_visible]; rfl
  | mem r =>
    simp only [readDst, readWords_visible]
    exact bind_map_same _ fun _ => rfl
  | form f => exact readForm_visible s f n

theorem writeDst_visible (s : State) (dst : Operand) (n opw : Nat) (v : Quad) :
    writeDst s.visible dst n opw v = (writeDst s dst n opw v).map State.visible := by
  cases dst with
  | an r | dn r => rfl
  | special x => simp only [writeDst, State.getSpecial_visible, State.setSpecial_visible]; rfl
  | mem r => exact writeWords_visible s _ _ v
  | form f =>
    simp only [writeDst, pushAddress, State.getSpecial_visible, State.setSpecial_visible]
    split
    · exact writeWords_visible _ _ _ v
    · rfl

theorem displacement_visible (q : Quick) (s : State) :
    displacement q s.visible = (displacement q s).map visibleSnd := by
  unfold displacement
  split
  · exact streamRead_visible s 1
  · split
    · exact bind_map_eq (streamRead_visible s 1) fun _ => rfl
    · rfl

/-! ## Templates -/

theorem modifyOp_visible (f : Quad → Quad → Quad) (n opw : Nat) (dst src : Operand) (s : State) :
    modifyOp f n opw dst src s.visible = (modifyOp f n opw dst src s).map State.visible := by
  refine bind_map_same _ fun _ => bind_map_same _ fun _ => bind_map_eq (readSrc_visible s src n) fun b => ?_
  refine bind_map_eq (readDst_visible b.2 dst n opw) fun a => ?_
  exact writeDst_visible a.2 dst n opw _

theorem moveOp_visible (n opw : Nat) (dst src : Operand) (s : State) :
    moveOp n opw dst src s.visible = (moveOp n opw dst src s).map State.visible := by
  refine bind_map_same _ fun _ => bind_map_same _ fun _ => bind_map_eq (readSrc_visible s src n) fun b => ?_
  exact writeDst_visible b.2 dst n opw _

theorem setOp_visible (v : Quad) (n opw : Nat) (dst : Operand) (s : State) :
    setOp v n opw dst s.visible = (setOp v n opw dst s).map State.visible :=
  bind_map_same _ fun _ => writeDst_visible s dst n opw _

theorem quickOp_visible (f : Quad → Quad → Quad) (n opw : Nat) (dst : Operand) (q : Quick) (s : State) :
    quickOp f n opw dst q s.visible = (quickOp f n opw dst q s).map State.visible := by
  refine bind_map_same _ fun _ => bind_map_eq (readDst_visible s dst n opw) fun a => ?_
  exact writeDst_visible a.2 dst n opw _

theorem unaryOp_visible (f : Nat → Quad → Quad) (n : Nat) (dst : Operand) (s : State) :
    unaryOp f n dst s.visible = (unaryOp f n dst s).map State.visible := by
  refine bind_map_same _ fun _ => bind_map_same _ fun _ => bind_map_eq (readDst_visible s dst n n) fun a => ?_
  exact writeDst_visible a.2 dst n n _

theorem exchangeOp_visible (x : Special) (n : Nat) (dst : Operand) (s : State) :
    exchangeOp x n dst s.visible = (exchangeOp x n dst s).map State.visible := by
  refine bind_map_same _ fun _ => bind_map_same _ fun _ => bind_map_same _ fun _ =>
    bind_map_eq (readDst_visible s dst n _) fun a => ?_
  have hwrite : writeDst a.2.visible dst n (opWidth dst n) (a.2.visible.getSpecial x) =
      (writeDst a.2 dst n (opWidth dst n) (a.2.getSpecial x)).map State.visible := by
    rw [State.getSpecial_visible, writeDst_visible]
  refine bind_map_eq hwrite fun t => ?_
  exact congrArg Except.ok (State.setSpecial_visible t x a.1)

theorem branchOp_visible (cond : Quad → Bool) (n opw : Nat) (dst : Operand) (q : Quick) (s : State) :
    branchOp cond n opw dst q s.visible = (branchOp cond n opw dst q s).map State.visible := by
  refine bind_map_same _ fun _ => bind_map_eq (readDst_visible s dst n opw) fun a => ?_
  refine bind_map_eq (displacement_visible q a.2) fun d => ?_
  show Except.ok (if cond a.1 then _ else _) = Except.ok (State.visible (if cond a.1 then _ else _))
  split <;> rfl

/-- An operation that commutes with hiding shows the same of its answer. -/
theorem map_visible_of_eq {r r' : Except Stop State} (h : r' = r.map State.visible) :
    r'.map State.visible = r.map State.visible := by
  subst h
  cases r <;> rfl

/-- What a template shows does not depend on what no instruction reads. -/
theorem Template.run_visible (p : Template) (s : State) :
    (p.run s.visible).map State.visible = (p.run s).map State.visible := by
  induction p with
  | stop e => rfl
  | nop => rfl
  | move z dst src => exact map_visible_of_eq (moveOp_visible _ _ dst src s)
  | modify f w dst src => exact map_visible_of_eq (modifyOp_visible f _ _ dst src s)
  | set v w dst => exact map_visible_of_eq (setOp_visible v _ _ dst s)
  | clear z dst => exact map_visible_of_eq (bind_map_same _ fun _ => setOp_visible 0 _ _ dst s)
  | quick f z dst q => exact map_visible_of_eq (quickOp_visible f _ _ dst q s)
  | unary f z dst => exact map_visible_of_eq (unaryOp_visible f _ dst s)
  | exchange x z dst => exact map_visible_of_eq (exchangeOp_visible x _ dst s)
  | branch cond w dst q => exact map_visible_of_eq (branchOp_visible cond _ _ dst q s)
  | loadUserPt | loadSuperPt =>
    simp only [Template.run, streamRead_visible]
    cases streamRead s 4 <;> rfl
  | setInterrupts v => rfl
  | endTranslation => rfl
  | privileged m body ih =>
    have hmode : s.visible.mode = s.mode := rfl
    simp only [Template.run, Machine.privileged, hmode]
    split
    · exact ih
    · rfl

/-! ## The step -/

/-- What is seen of an outcome is what is seen of the answer. -/
theorem visibleOutcome_finish (r : Except Stop State) :
    visibleOutcome (finish r) = finish (r.map State.visible) := by
  rcases r with (_ | _) | _ <;> rfl

theorem visibleOutcome_exec_visible (i : Instr) (s : State) :
    visibleOutcome (exec i s.visible) = visibleOutcome (exec i s) := by
  rw [exec_eq_run, exec_eq_run, visibleOutcome_finish, visibleOutcome_finish, Template.run_visible]

theorem fetch_visible (s : State) : fetch s.visible = (fetch s).map visibleSnd :=
  bind_map_eq (streamRead_visible s 1) fun _ => rfl

theorem visibleOutcome_step_visible (s : State) : visibleOutcome (step s.visible) = visibleOutcome (step s) := by
  unfold step
  rw [fetch_visible]
  rcases fetch s with (_ | _) | ⟨w, s1⟩
  · rfl
  · rfl
  · exact visibleOutcome_exec_visible (decodeWord w) s1

/-- Settles O18: a step shows what the step from the visible part of its state shows. -/
theorem hiddenStateUnread : Obligations.HiddenStateUnread := by
  intro s t hvisible
  calc visibleOutcome (step s) = visibleOutcome (step s.visible) := (visibleOutcome_step_visible s).symm
    _ = visibleOutcome (step t.visible) := by rw [hvisible]
    _ = visibleOutcome (step t) := visibleOutcome_step_visible t

end Sys2Proof.Machine
end

section
/-! SUPPORT. The decoder undoes the encoder (30_encoding.md R80 to R103): field by field, then column by column. -/

namespace Sys2Proof

/-! ## Fields -/

/-- The fields of a word are those it was made of (30_encoding.md R80). -/
@[simp] theorem fieldsOf_wordOf (f : Fields) : fieldsOf (wordOf f) = f := by
  simp only [fieldsOf, wordOf]
  simp (disch := omega) only [BitVec.extractLsb'_append_eq_of_le, BitVec.extractLsb'_append_eq_of_add_le]
  exact Fields.mk.injEq .. ▸ ⟨BitVec.extractLsb'_eq_self, BitVec.extractLsb'_eq_self, BitVec.extractLsb'_eq_self,
    BitVec.extractLsb'_eq_self, BitVec.extractLsb'_eq_self⟩

@[simp] theorem decodeSize_encodeSize (z : Size) : decodeSize (encodeSize z) = z := by
  cases z <;> rfl

/-- No size has the code 11 (30_encoding.md R85). -/
@[simp] theorem encodeSize_ne_three (z : Size) : encodeSize z ≠ 3#2 := by
  cases z <;> decide

@[simp] theorem decodePrecision_encodePrecision (p : Precision) : decodePrecision (encodePrecision p) = p := by
  cases p <;> rfl

@[simp] theorem decodeOperand_encodeOperand (o : Operand) : decodeOperand (encodeOperand o) = o := by
  cases o with
  | an r | mem r | dn r => revert r; decide
  | special x => cases x <;> rfl
  | form f => cases f <;> rfl

/-- The source field of a halves function is an An, its number the function (44_cfr.md R190). -/
theorem decodeOperand_halves (fn : BitVec 3) : decodeOperand (0#2 ++ fn) = .an fn.toFin := by
  revert fn; decide

/-- The source field of a fulls function is a Dn, its number the function (44_cfr.md R200). -/
theorem decodeOperand_fulls (fn : BitVec 3) : decodeOperand (2#2 ++ fn) = .dn fn.toFin := by
  revert fn; decide

/-- The destination field of COM is special direct. -/
theorem decodeOperand_comDst (n : BitVec 5) :
    decodeOperand (comDst n) = .special (decodeSpecial (n.extractLsb' 0 2)) := by
  revert n; decide

/-- The number of COM, from the two fields that hold it (45_system_ops.md R250). -/
theorem comNumber_comDst (n : BitVec 5) : comNumber (n.extractLsb' 2 3) (comDst n) = n := by
  revert n; decide

/-! ## Columns -/

theorem decodeFields_columnD (op : BitVec 3) (z : Size) (dst src : Operand) :
    decodeFields (columnD op z dst src) = decodeColumnD z (columnD op z dst src) := by
  simp [decodeFields, columnD]

theorem decodeFields_columnF (op : BitVec 3) (z : Size) (dst : Operand) (q : Quick) :
    decodeFields (columnF op z dst q) = decodeColumnF z (columnF op z dst q) := by
  simp [decodeFields, columnF]

theorem decodeFields_halvesFields (fn : BitVec 3) (z : Size) (dst : Operand) :
    decodeFields (halvesFields fn z dst) = decodeHalves z dst fn := by
  simp only [decodeFields, halvesFields, decodeColumnD, decodeCfr, decodeOperand_halves, encodeSize_ne_three, if_true,
    if_false, decodeSize_encodeSize, decodeOperand_encodeOperand]
  exact congrArg _ BitVec.extractLsb'_append_eq_right

theorem decodeFields_fullsFields (fn : BitVec 3) (z : Size) (dst : Operand) :
    decodeFields (fullsFields fn z dst) = decodeFulls z dst fn := by
  simp only [decodeFields, fullsFields, decodeColumnD, decodeCfr, decodeOperand_fulls, encodeSize_ne_three, if_true,
    if_false, decodeSize_encodeSize, decodeOperand_encodeOperand]
  exact congrArg _ BitVec.extractLsb'_append_eq_right

theorem decodeFields_pairD (op : BitVec 3) (dst src : Special) :
    decodeFields (pairFields op 1#1 dst src) = decodePairD op dst src := by
  simp [decodeFields, pairFields, decodeSizeThree]

theorem decodeFields_pairF (op : BitVec 3) (dst src : Special) :
    decodeFields (pairFields op 0#1 dst src) = decodePairF op (encodeOperand (.special dst)) dst src := by
  simp [decodeFields, pairFields, decodeSizeThree]

/-- An @ form keeps its source, which is not special direct (30_encoding.md R100). -/
theorem decodeFields_atFields (op : BitVec 3) (dst : Special) (src : Operand) (h : (!src.isSpecial) = true) :
    decodeFields (atFields op dst src) = decodeAt (atFields op dst src) dst src := by
  cases src with
  | special x => cases h
  | _ => simp [decodeFields, atFields, decodeSizeThree]

theorem decodeFields_com (n : BitVec 5) :
    decodeFields (comFields n (encodeOperand (.special .pc))) = .com n := by
  simp [decodeFields, comFields, decodeSizeThree, decodeOperand_comDst, decodePairF, comNumber_comDst]

theorem decodeFields_atCom (n : BitVec 5) (src : Operand) (h : (!src.isSpecial) = true) :
    decodeFields (comFields n (encodeOperand src)) = .atCom n src := by
  cases src with
  | special x => cases h
  | _ => simp [decodeFields, comFields, decodeSizeThree, decodeOperand_comDst, decodeAt, comNumber_comDst]

/-- The float map (30_encoding.md R97 case 4) decodes what FCN and the pair tables leave it: no operand special direct. -/
theorem decodeFields_floatFields (op : BitVec 3) (p : Precision) (dst src : Operand)
    (h : (!dst.isSpecial && !src.isSpecial) = true) :
    decodeFields (floatFields op p dst (encodeOperand src)) = decodeFloat op p dst (encodeOperand src) := by
  obtain ⟨hdst, hsrc⟩ := (Bool.and_eq_true _ _).mp h
  cases dst with
  | special x => cases hdst
  | _ =>
    cases src with
    | special x => cases hsrc
    | _ => simp [decodeFields, floatFields, decodeSizeThree]

/-- A float branch has `op` 4 to 7 and any quick field. -/
theorem decodeFields_floatBranch (op : BitVec 3) (p : Precision) (dst : Operand) (q : Quick)
    (hop : op.extractLsb' 2 1 ≠ 0#1) (hdst : (!dst.isSpecial) = true) :
    decodeFields (floatFields op p dst q) = decodeFloat op p dst q := by
  cases dst with
  | special x => cases hdst
  | _ =>
    simp only [decodeFields, floatFields, decodeSizeThree, decodeOperand_encodeOperand, if_true, if_neg hop,
      decodePrecision_encodePrecision]
    split <;> rfl

theorem decodeFields_fcn (op : BitVec 2) (p : Precision) (dst : Operand) (src : Special) (hdst : (!dst.isSpecial) = true) :
    decodeFields (floatFields (0#1 ++ op) p dst (encodeOperand (.special src))) = .fcn op p dst src := by
  have hhigh : (0#1 ++ op).extractLsb' 2 1 = 0#1 := BitVec.extractLsb'_append_eq_left
  have hlow : (0#1 ++ op).extractLsb' 0 2 = op := BitVec.extractLsb'_append_eq_right
  cases dst with
  | special x => cases hdst
  | _ =>
    simp only [decodeFields, floatFields, decodeSizeThree, decodeOperand_encodeOperand, if_true, hhigh, hlow,
      decodePrecision_encodePrecision]

/-- MLL, AND, ORR and XOR with no operand PC direct (30_encoding.md R102). -/
theorem decodeNopProne_op {z : Size} {dst src : Operand} {dstRefused srcRefused : Size → Form → Instr}
    {nopDst nopSrc : Size → Operand → Instr} {op : Size → Operand → Operand → Instr}
    (h : (!dst.isPc && !src.isPc) = true) :
    decodeNopProne z dst src dstRefused srcRefused nopDst nopSrc op = op z dst src := by
  simp_all [decodeNopProne]

theorem decodeNopProne_nopDst {z : Size} {src : Operand} {dstRefused srcRefused : Size → Form → Instr}
    {nopDst nopSrc : Size → Operand → Instr} {op : Size → Operand → Operand → Instr} (h : (!src.isForm) = true) :
    decodeNopProne z (.special .pc) src dstRefused srcRefused nopDst nopSrc op = nopDst z src := by
  cases src with
  | form f => cases h
  | _ => rfl

theorem decodeNopProne_nopSrc {z : Size} {dst : Operand} {dstRefused srcRefused : Size → Form → Instr}
    {nopDst nopSrc : Size → Operand → Instr} {op : Size → Operand → Operand → Instr}
    (h : (!dst.isForm && !dst.isPc) = true) :
    decodeNopProne z dst (.special .pc) dstRefused srcRefused nopDst nopSrc op = nopSrc z dst := by
  cases dst with
  | form f => cases h
  | special x =>
    cases x with
    | pc => cases h
    | ip | sp | rp => rfl
  | _ => rfl

/-! ## Instructions -/

/-- The decoder gives back every well-formed instruction from its fields. -/
theorem decodeFields_encodeFields (i : Instr) (h : i.wf = true) : decodeFields (encodeFields i) = i := by
  cases i with
  | brk | trp | hpr | civ | reserved | systemDesign | snp | sup | ein | din | wti | cls | rss | sil | hnp | ssp | evm
  | dvm | cli | clh | rsh | hil => exact decodeFields_pairD _ _ _
  | reservedExtension op dst src =>
    cases src with
    | pc | ip => cases h
    | sp | rp => exact decodeFields_pairD op dst _
  | com n => exact decodeFields_com n
  | userExtension op dst => exact decodeFields_pairF op dst .ip
  | reservedVectorPrefix op dst src =>
    cases src with
    | pc | ip => cases h
    | sp | rp => exact decodeFields_pairF op dst _
  | atBrk op src | atTrp op src | atHvr op src | atCiv op src => exact decodeFields_atFields op _ src h
  | atCom n src => exact decodeFields_atCom n src h
  | fcn op p dst src => exact decodeFields_fcn op p dst src h
  | fdv p dst src | fad p dst src | fml p dst src | fsb p dst src =>
    exact (decodeFields_floatFields _ p dst src h).trans (by simp [decodeFloat])
  | fbp p dst q | fbm p dst q | fbd p dst q | fbi p dst q => exact decodeFields_floatBranch _ p dst q (by decide) h
  | mllNopDstRefused | andNopDstRefused | orrNopDstRefused | xorNopDstRefused
  | mllNopSrcRefused | andNopSrcRefused | orrNopSrcRefused | xorNopSrcRefused =>
    rw [encodeFields, decodeFields_columnD]
    simp [decodeColumnD, columnD, decodeNopProne, Operand.isPc]
  | mllNopDst | andNopDst | orrNopDst | xorNopDst =>
    rw [encodeFields, decodeFields_columnD]
    simp [decodeColumnD, columnD, decodeNopProne_nopDst h]
  | mllNopSrc | andNopSrc | orrNopSrc | xorNopSrc =>
    rw [encodeFields, decodeFields_columnD]
    simp [decodeColumnD, columnD, decodeNopProne_nopSrc h]
  | mll | and | orr | xor =>
    rw [encodeFields, decodeFields_columnD]
    simp [decodeColumnD, columnD, decodeNopProne_op h]
  | mov | add | sub =>
    rw [encodeFields, decodeFields_columnD]
    simp [decodeColumnD, columnD]
  | pcx | ipx | spx | rpx =>
    rw [encodeFields, decodeFields_columnD]
    simp [decodeColumnD, columnD, decodeCfr]
  | cfr z dst src =>
    cases src with
    | an | dn | special => cases h
    | mem | form =>
      rw [encodeFields, decodeFields_columnD]
      simp [decodeColumnD, columnD, decodeCfr]
  | halvesNop z fn => exact decodeFields_halvesFields fn z _
  | fullsNop z fn => exact decodeFields_fullsFields fn z _
  | exh z dst | sxl z dst | inu z dst | dcu z dst | slt z dst | srt z dst | adu z dst | sbu z dst =>
    exact (decodeFields_halvesFields _ z dst).trans (if_neg (by simpa [Instr.wf] using h))
  | abs z dst | sgn z dst | not z dst | cpl z dst | clr z dst | asr z dst | lsr z dst =>
    exact (decodeFields_fullsFields _ z dst).trans (if_neg (by simpa [Instr.wf] using h))
  | wto dst => exact (decodeFields_fullsFields _ .q dst).trans (if_neg (by simpa [Instr.wf] using h))
  | wtoGroup z dst =>
    obtain ⟨hz, hdst⟩ : z ≠ .q ∧ ¬ dst.isPc = true := by simpa [Instr.wf] using h
    exact (decodeFields_fullsFields _ z dst).trans ((if_neg hdst).trans (if_neg hz))
  | mvq | adq | sbq =>
    rw [encodeFields, decodeFields_columnF]
    simp [decodeColumnF, columnF]
  | mlqNop =>
    rw [encodeFields, decodeFields_columnF]
    simp [decodeColumnF, columnF, Operand.isPc]
  | mlq z dst q =>
    have hdst : dst.isPc = false := by simpa [Instr.wf] using h
    rw [encodeFields, decodeFields_columnF]
    simp [decodeColumnF, columnF, hdst]
  | bplNopZeroRefused | bmiNopZeroRefused | bzeNopZeroRefused | bnzNopZeroRefused | bplNopMinusRefused
  | bmiNopMinusRefused | bzeNopMinusRefused | bnzNopMinusRefused =>
    rw [encodeFields, decodeFields_columnF]
    simp [decodeColumnF, columnF, decodeQuickBranch, Operand.isPc]
  | bplNop z q | bmiNop z q | bzeNop z q | bnzNop z q =>
    obtain ⟨hzero, hminus⟩ : q ≠ 0#5 ∧ q ≠ 31#5 := by simpa [Instr.wf, longMarker] using h
    rw [encodeFields, decodeFields_columnF]
    simp [decodeColumnF, columnF, decodeQuickBranch, Operand.isPc, hzero, hminus]
  | bpl z dst q | bmi z dst q | bze z dst q | bnz z dst q =>
    have hdst : dst.isPc = false := by simpa [Instr.wf] using h
    rw [encodeFields, decodeFields_columnF]
    simp [decodeColumnF, columnF, decodeQuickBranch, hdst]

/-- The decoder gives back every well-formed instruction from its word. -/
theorem decodeWord_encode (i : Instr) (h : i.wf = true) : decodeWord (encode i) = i := by
  rw [decodeWord, encode, fieldsOf_wordOf, decodeFields_encodeFields i h]

end Sys2Proof
end

section
/-! SUPPORT. The step on an instruction that stands at PC (O5), the placing of one there from outside (O8), and the state
after reset (O13, O14). -/

namespace Sys2Proof.Machine

/-! ## A word of the instruction stream -/

/-- The word at `x` can be taken from the instruction stream and is `w` (20_memory.md R56, R61). -/
structure State.StreamHolds (s : State) (x : Quad) (w : Word) : Prop where
  mapped : s.mapped x = true
  word : s.memory.wordAt x = some w
  fresh : s.isStored x = false

theorem State.StreamHolds.streamable {s : State} {w : Word} (h : s.StreamHolds s.pc w) (hvm : s.vmEnable = false) :
    s.streamable 1 := by
  have hfirst (j : Nat) (hj : j < 1) : s.pc + BitVec.ofNat 64 j = s.pc := by
    obtain rfl : j = 0 := by omega
    exact BitVec.add_zero _
  refine ⟨⟨hvm, fun j hj => ?_⟩, fun j hj => ?_⟩
  · rw [hfirst j hj, h.word]
    exact ⟨h.mapped, rfl⟩
  · rw [hfirst j hj]
    exact h.fresh

/-- A step runs the instruction whose word stands at PC. -/
theorem step_of_streamHolds {s : State} {i : Instr} (hi : i.wf = true) (hvm : s.vmEnable = false)
    (h : s.StreamHolds s.pc (encode i)) : step s = exec i (s.setPc (s.pc + 1)) := by
  have hword : encode i = s.wordOrZero s.pc := by rw [State.wordOrZero, h.word]; rfl
  have hfetch := (fetch_eq_ok s _ (encode i)).2 ⟨h.streamable hvm, hword, rfl⟩
  rw [step, hfetch]
  show exec (decodeWord (encode i)) _ = _
  rw [decodeWord_encode i hi]

/-- Settles O5: what the statement assumes of the word at PC is that it stands in the stream. -/
theorem stepRunsDecoded : Obligations.StepRunsDecoded := by
  rintro s _ i hvm hmapped hword hfresh hi rfl
  exact step_of_streamHolds hi hvm ⟨hmapped, hword, hfresh⟩

/-! ## Placing an instruction -/

/-- Placing a word keeps what is mapped. -/
theorem State.mapped_placeWord (s : State) (x y : Quad) (w : Word) (h : s.mapped y = true) :
    (s.placeWord x w).mapped y = true := by
  unfold State.mapped State.placeWord
  split
  · exact h
  · simp only [List.any_cons, Bool.or_eq_true]
    exact Or.inr h

/-- A placed word stands in the stream. -/
theorem State.streamHolds_placeWord_self (s : State) (x : Quad) (w : Word) : (s.placeWord x w).StreamHolds x w where
  mapped := by
    by_cases h : s.mapped x = true
    · exact s.mapped_placeWord x x w h
    · have hplatform : (s.placeWord x w).platform = { base := x.toNat, words := 1 } :: s.platform := if_neg h
      simp [State.mapped, hplatform]
  word := by simp [State.placeWord]
  fresh := by simp [State.isStored, State.placeWord]

/-- Placing a word leaves every other word of the stream. -/
theorem State.StreamHolds.placeWord {s : State} {x y : Quad} {v w : Word} (h : s.StreamHolds y v) (hne : y ≠ x) :
    (s.placeWord x w).StreamHolds y v where
  mapped := s.mapped_placeWord x y w h.mapped
  word := by simp [State.placeWord, hne, h.word]
  fresh := by
    have := h.fresh
    simp_all [State.isStored, State.placeWord]

theorem State.placeWords_pc (s : State) (bits first k : Nat) : (s.placeWords bits first k).pc = s.pc := by
  induction k generalizing s first with
  | zero => rfl
  | succ k ih => exact ih _ _

theorem State.placeWords_vmEnable (s : State) (bits first k : Nat) :
    (s.placeWords bits first k).vmEnable = s.vmEnable := by
  induction k generalizing s first with
  | zero => rfl
  | succ k ih => exact ih _ _

/-- The words placed after PC do not reach round to PC. -/
theorem State.StreamHolds.placeWords {s : State} {v : Word} (bits first k : Nat) (hfirst : 0 < first)
    (hk : first + k ≤ 2 ^ 64) (h : s.StreamHolds s.pc v) : (s.placeWords bits first k).StreamHolds s.pc v := by
  induction k generalizing s first with
  | zero => exact h
  | succ k ih =>
    have hne : s.pc ≠ s.pc + BitVec.ofNat 64 first := by
      intro he
      have := congrArg BitVec.toNat he
      simp only [BitVec.toNat_add, BitVec.toNat_ofNat] at this
      omega
    exact ih (first + 1) (by omega) (by omega) (h.placeWord hne)

/-- The instruction word that `withFetchWord` places stands at PC. -/
theorem State.streamHolds_withFetchWord (s : State) (w : Word) :
    (s.withFetchWord 16 w.toNat).StreamHolds s.pc w := by
  have hword : BitVec.ofNat 16 (w.toNat % 2 ^ 16 / 2 ^ (16 * 0)) = w := by
    rw [Nat.mod_eq_of_lt w.isLt]
    simp
  have hplaced : s.withFetchWord 16 w.toNat =
      (State.placeWord { s with vmEnable := false } s.pc w).placeWords (w.toNat % 2 ^ 16) 1 4 := by
    have hpc : s.pc + BitVec.ofNat 64 0 = s.pc := BitVec.add_zero _
    rw [State.withFetchWord, State.placeWords, hword, hpc]
  rw [hplaced]
  exact (State.streamHolds_placeWord_self _ s.pc w).placeWords _ 1 4 (by omega) (by omega)

/-- Settles O8: the placed instruction stands at PC, so the next step runs it. -/
theorem placedWordRuns : Obligations.PlacedWordRuns := by
  intro s i hi
  have hpc : (s.withFetchWord 16 (encode i).toNat).pc = s.pc := State.placeWords_pc _ _ _ _
  have hvm : (s.withFetchWord 16 (encode i).toNat).vmEnable = false := State.placeWords_vmEnable _ _ _ _
  have hholds := s.streamHolds_withFetchWord (encode i)
  rw [← hpc] at hholds ⊢
  exact step_of_streamHolds hi hvm hholds

/-! ## Reset -/

/-- Settles O13: `State.reset` states both, the register specials as eight zeros. -/
theorem resetGiven : Obligations.ResetGiven := by
  refine ⟨fun k _ => ?_, rfl⟩
  exact Vector.getElem_replicate k.isLt

/-- Settles O14: every field of the invariant is read off `State.reset`. -/
theorem invariantAtReset : Obligations.InvariantAtReset where
  memory := rfl
  stored := rfl
  noTarget := rfl
  noPair := rfl
  untranslated := rfl

end Sys2Proof.Machine
end

section
/-! SUPPORT. What a register write leaves in the register (O21, O22): the value of `insertLow` as a number, and the
written value of an instruction with destination Dn as a function of the low bits of its operands. -/

namespace Sys2Proof.Machine

/-! ## The low bits -/

theorem toNat_low (n : Nat) (v : Quad) : (low n v).toNat = v.toNat % 2 ^ n := by
  have hle := Nat.mod_le v.toNat (2 ^ n)
  have hlt : v.toNat % 2 ^ n < 2 ^ 64 := lt_of_le_of_lt hle v.isLt
  rw [low, BitVec.toNat_setWidth, BitVec.toNat_setWidth, Nat.mod_eq_of_lt hlt]

/-- Values that agree modulo 2^n have the same low `n` bits. -/
theorem low_congr {n : Nat} {v w : Quad} (h : v.toNat % 2 ^ n = w.toNat % 2 ^ n) : low n v = low n w :=
  BitVec.eq_of_toNat_eq (by rw [toNat_low, toNat_low, h])

/-- The value of a register of which the low `n` bits are replaced (10_state.md R23). -/
theorem toNat_insertLow (n : Nat) (old v : Quad) :
    (insertLow n old v).toNat = old.toNat / 2 ^ n * 2 ^ n + v.toNat % 2 ^ n := by
  have hhigh : old.toNat / 2 ^ n * 2 ^ n < 2 ^ 64 := lt_of_le_of_lt (Nat.div_mul_le_self _ _) old.isLt
  have hlow : v.toNat % 2 ^ n < 2 ^ n := Nat.mod_lt _ (Nat.two_pow_pos n)
  rw [insertLow, BitVec.toNat_or, toNat_low, BitVec.toNat_shiftLeft, BitVec.toNat_ushiftRight, Nat.shiftLeft_eq,
    Nat.shiftRight_eq_div_pow, Nat.mod_eq_of_lt hhigh, mul_comm, Nat.two_pow_add_eq_or_of_lt hlow]

theorem toNat_insertLow_mod (n : Nat) (old v : Quad) : (insertLow n old v).toNat % 2 ^ n = v.toNat % 2 ^ n := by
  rw [toNat_insertLow, Nat.mul_add_mod_self_right, Nat.mod_mod]

theorem toNat_insertLow_div (n : Nat) (old v : Quad) : (insertLow n old v).toNat / 2 ^ n = old.toNat / 2 ^ n := by
  have hpos := Nat.two_pow_pos n
  rw [toNat_insertLow, Nat.mul_comm, Nat.mul_add_div hpos, Nat.div_eq_of_lt (Nat.mod_lt _ hpos), Nat.add_zero]

/-- Replacing all 64 bits of a register gives the value (30_encoding.md R92). -/
@[simp] theorem insertLow_all (old v : Quad) : insertLow 64 old v = v := by
  apply BitVec.eq_of_toNat_eq
  rw [toNat_insertLow, Nat.div_eq_of_lt old.isLt, Nat.mod_eq_of_lt v.isLt, Nat.zero_mul, Nat.zero_add]

/-- Replacing the low bits by themselves changes nothing. -/
@[simp] theorem insertLow_low_self (n : Nat) (v : Quad) : insertLow n v (low n v) = v := by
  apply BitVec.eq_of_toNat_eq
  rw [toNat_insertLow, toNat_low, Nat.mod_mod, Nat.mul_comm, Nat.div_add_mod]

/-- Settles O21, from the value of `insertLow` at the operand width and at all 64 bits. -/
theorem registerWriteLaw : Obligations.RegisterWriteLaw := by
  intro s z v r x
  refine ⟨⟨_, rfl, ?_⟩, ⟨_, rfl, ?_⟩, ⟨_, rfl, ?_⟩⟩
  · rw [State.getD_setD, if_pos rfl, toNat_insertLow]
  · rw [State.getA_setA, if_pos rfl, opWidth, insertLow_all]
  · rw [State.getSpecial_setSpecial, if_pos rfl, opWidth, insertLow_all]

/-! ## Instructions with destination Dn -/

@[simp] theorem getD_srcState (s : State) (src : Operand) (n : Nat) (r : RegNum) :
    (srcState s src n).getD r = s.getD r := by
  cases src with
  | form f => exact State.getD_setSpecial _ _ _ _
  | _ => rfl

theorem getD_writeState_dn (s : State) (r : RegNum) (n opw : Nat) (v : Quad) :
    (writeState s (.dn r) n opw v).getD r = insertLow n (s.getD r) v := by
  rw [writeState, State.getD_setD, if_pos rfl]

/-- A template with destination Dn leaves its result in the low bits and the rest as it was (10_state.md R23). -/
theorem Template.getD_after {p : Template} {r : RegNum} {n : Nat} (h : p.written = some (.dn r, n)) (s : State) :
    (p.after s).getD r = insertLow n (s.getD r) (p.result s) := by
  induction p with
  | move z dst src => cases h; rw [after, getD_writeState_dn, getD_srcState]
  | modify f w dst src => cases h; rw [after, getD_writeState_dn, modifyAt, dstState, getD_srcState]
  | set v w dst | clear z dst => cases h; rw [after, getD_writeState_dn]
  | quick f z dst q | unary f z dst => cases h; rw [after, getD_writeState_dn, dstState]
  | exchange x z dst => cases h; rw [after, State.getD_setSpecial, getD_writeState_dn, dstState]
  | privileged m body ih => exact ih h
  | stop | nop | branch | loadUserPt | loadSuperPt | setInterrupts | endTranslation => cases h

/-- The data registers of the two states agree in their low `n` bits, and the operand `src`, if there is one, has the
same `n`-bit value in both. -/
structure AgreeLow (n : Nat) (src : Option Operand) (s u : State) : Prop where
  data : ∀ q, low n (u.getD q) = low n (s.getD q)
  source : ∀ o, src = some o → srcValue u o n = srcValue s o n

/-- The low bits that a template writes to Dn depend on the low bits of its operands only (10_state.md R23). -/
theorem Template.low_result_congr {p : Template} {r : RegNum} {n : Nat} (h : p.written = some (.dn r, n)) {s u : State}
    (ha : AgreeLow n p.source s u) : low n (p.result u) = low n (p.result s) := by
  induction p with
  | move z dst src => cases h; rw [result, result, ha.source src rfl]
  | modify f w dst src =>
    cases h
    have hdst : low w.bits ((srcState u src w.bits).getD r) = low w.bits ((srcState s src w.bits).getD r) := by
      rw [getD_srcState, getD_srcState, ha.data r]
    rw [result, result, ha.source src rfl, dstValue, dstValue, hdst]
  | set v w dst | clear z dst => rfl
  | quick f z dst q | unary f z dst => cases h; rw [result, result, dstValue, dstValue, ha.data r]
  | exchange x z dst => cases h; exact ha.source (.special x) rfl
  | privileged m body ih => exact ih h ha
  | stop | nop | branch | loadUserPt | loadSuperPt | setInterrupts | endTranslation => cases h

/-- The value of several words depends on these words only. -/
theorem State.valueAt_congr {s u : State} {x : Quad} {k : Nat}
    (h : ∀ j, j < k → u.wordOrZero (x + BitVec.ofNat 64 j) = s.wordOrZero (x + BitVec.ofNat 64 j)) :
    u.valueAt x k = s.valueAt x k := by
  induction k with
  | zero => rfl
  | succ k ih => rw [State.valueAt, State.valueAt, ih fun j hj => h j (by omega), h k (by omega)]

theorem State.valueAt_of_memory_eq {s u : State} (h : u.memory = s.memory) (x : Quad) (k : Nat) :
    u.valueAt x k = s.valueAt x k :=
  State.valueAt_congr fun _ _ => by rw [State.wordOrZero, h, State.wordOrZero]

/-- Changing the upper bits of the data registers and of the source register leaves the low bits of the operands. -/
theorem agreeLow_withRegister {n : Nat} {src : Option Operand} {s : State} {d : Vector Quad 8} {v : Quad}
    (hd : ∀ q : RegNum, (s.getD q).toNat % 2 ^ n = d[q].toNat % 2 ^ n)
    (hv : ∀ x, s.registerOf src = some x → x.toNat % 2 ^ n = v.toNat % 2 ^ n) :
    AgreeLow n src s ({ s with d := d }.withRegister src v) where
  data q := by
    have hq : low n (State.getD { s with d := d } q) = low n (s.getD q) := low_congr (hd q).symm
    by_cases hsrc : src = some (.dn q)
    · subst hsrc
      rw [State.withRegister, State.getD_setD, if_pos rfl]
      exact (low_congr (hv _ rfl)).symm
    · rw [State.getD_withRegister _ _ _ _ hsrc, hq]
  source o ho := by
    subst ho
    have hvalue (x : Quad) (k : Nat) : State.valueAt { s with d := d } x k = s.valueAt x k :=
      State.valueAt_of_memory_eq (s := s) (u := { s with d := d }) rfl x k
    cases o with
    | an r =>
      rw [srcValue, State.withRegister, State.getA_setA, if_pos rfl]
      exact (low_congr (hv _ rfl)).symm
    | dn r =>
      rw [srcValue, State.withRegister, State.getD_setD, if_pos rfl]
      exact (low_congr (hv _ rfl)).symm
    | special x =>
      rw [srcValue, State.withRegister, State.getSpecial_setSpecial, if_pos rfl]
      exact (low_congr (hv _ rfl)).symm
    | mem r => exact hvalue _ _
    | form f => cases f <;> exact hvalue _ _

/-- Settles O22: Dn keeps its upper bits and receives a result of which the low bits are those of the operands' low
bits. -/
theorem dataRegisterModuloSize : Obligations.DataRegisterModuloSize := by
  intro i s t r n hwritten hexec
  rw [written_eq] at hwritten
  obtain ⟨_, rfl⟩ := exec_next hexec
  refine ⟨by rw [Template.getD_after hwritten, toNat_insertLow_div], fun d v u hd hv hu => ?_⟩
  obtain ⟨_, rfl⟩ := exec_next hu
  rw [sourceOf_eq] at hv ⊢
  have hresult := congrArg BitVec.toNat (Template.low_result_congr hwritten (agreeLow_withRegister hd hv))
  rw [toNat_low, toNat_low] at hresult
  rw [Template.getD_after hwritten, Template.getD_after hwritten, toNat_insertLow_mod, toNat_insertLow_mod, hresult]

end Sys2Proof.Machine
end

section
/-! SUPPORT. Where PC stands after an instruction that is no control transfer (O19): operand reads move it past their
immediates, operand writes leave it. -/

namespace Sys2Proof.Machine

@[simp] theorem State.storeWords_pc (s : State) (x : Quad) (k : Nat) (v : Quad) : (s.storeWords x k v).pc = s.pc :=
  s.getSpecial_storeWords x k v .pc

theorem State.setSpecial_pc_of_ne (s : State) {x : Special} (v : Quad) (h : x ≠ .pc) : (s.setSpecial x v).pc = s.pc := by
  rw [← State.getSpecial_pc, State.getSpecial_setSpecial, if_neg h.symm, State.getSpecial_pc]

/-- The read half of a form moves PC past its immediate, if it has one (30_encoding.md R91). -/
theorem formState_pc (s : State) (f : Form) (n : Nat) :
    (formState s f n).pc = s.pc + BitVec.ofNat 64 (immediateWords (.form f) n) := by
  cases f with
  | pcSp => rfl
  | ipRp | spSp | rpRp => exact (BitVec.add_zero _).symm

theorem srcState_pc (s : State) (src : Operand) (n : Nat) :
    (srcState s src n).pc = s.pc + BitVec.ofNat 64 (immediateWords src n) := by
  cases src with
  | form f => exact formState_pc s f n
  | _ => exact (BitVec.add_zero _).symm

theorem dstState_pc (s : State) (dst : Operand) (n : Nat) :
    (dstState s dst n).pc = s.pc + BitVec.ofNat 64 (immediateWords dst n) := by
  cases dst with
  | form f => exact formState_pc s f n
  | _ => exact (BitVec.add_zero _).symm

/-- Only a write to PC direct moves PC. -/
theorem writeState_pc (s : State) (dst : Operand) (n opw : Nat) (v : Quad) (h : dst.isPc = false) :
    (writeState s dst n opw v).pc = s.pc := by
  cases dst with
  | an r | dn r => rfl
  | mem r => exact State.storeWords_pc _ _ _ _
  | special x =>
    refine State.setSpecial_pc_of_ne s _ fun hx => ?_
    subst hx
    cases h
  | form f => cases f <;> simp [writeState, writePointer, State.setSpecial_pc_of_ne]

/-- A template that is no control transfer moves PC past the words it takes. -/
theorem Template.pc_after {p : Template} (h : p.jumps = false) (s : State) :
    (p.after s).pc = s.pc + BitVec.ofNat 64 p.words := by
  induction p with
  | stop | nop | setInterrupts | endTranslation => exact (BitVec.add_zero _).symm
  | loadUserPt | loadSuperPt => rfl
  | move z dst src => rw [after, writeState_pc _ _ _ _ _ h, srcState_pc, words]
  | modify f w dst src =>
    rw [after, writeState_pc _ _ _ _ _ h, modifyAt, dstState_pc, srcState_pc, words, BitVec.ofNat_add, BitVec.add_assoc]
  | set v w dst | clear z dst => exact (writeState_pc _ _ _ _ _ h).trans (BitVec.add_zero _).symm
  | quick f z dst q | unary f z dst => rw [after, writeState_pc _ _ _ _ _ h, dstState_pc, words]
  | exchange x z dst =>
    obtain ⟨hx, hdst⟩ := Bool.or_eq_false_iff.1 h
    rw [after, State.setSpecial_pc_of_ne _ _ (by simpa using hx), writeState_pc _ _ _ _ _ hdst, dstState_pc, words]
  | branch cond w dst q => cases h
  | privileged m body ih => exact ih h

/-- Settles O19: the words a template takes are those that `followingWords` counts. -/
theorem pcAdvance : Obligations.PcAdvance := by
  intro i s t _ hjump hexec
  obtain ⟨hstops, rfl⟩ := exec_next hexec
  rw [followingWords_eq i hstops]
  exact Template.pc_after ((mayJump_eq i).symm.trans hjump) s

end Sys2Proof.Machine
end

section
/-! SUPPORT. Several words written and read back, and with them a push and the pop that undoes it (O32). -/

namespace Sys2Proof.Machine

/-! ## Read after write -/

/-- The `k` words of a store begin at distinct addresses, also where the address wraps. -/
theorem offset_ne {x : Quad} {j k : Nat} (hjk : j < k) (hk : k < 2 ^ 64) :
    x + BitVec.ofNat 64 j ≠ x + BitVec.ofNat 64 k := by
  intro he
  have hofNat := congrArg BitVec.toNat (add_left_cancel he)
  rw [BitVec.toNat_ofNat, BitVec.toNat_ofNat, Nat.mod_eq_of_lt (by omega), Nat.mod_eq_of_lt hk] at hofNat
  omega

/-- Every word of a store has a value after it. -/
theorem State.wordAt_storeWords_isSome (s : State) (x : Quad) (k : Nat) (v : Quad) (j : Nat) (hj : j < k) :
    ((s.storeWords x k v).memory.wordAt (x + BitVec.ofNat 64 j)).isSome = true := by
  induction k generalizing v with
  | zero => omega
  | succ k ih =>
    rw [State.storeWords, State.storeWord_memory, Memory.wordAt_putWord]
    split
    · rfl
    · next hne =>
      have hjk : j ≠ k := fun h => hne (by rw [h])
      exact ih _ (by omega)

/-- The upper words and the last word of a value make its low bits. -/
theorem low_append_word (m : Nat) (v : Quad) :
    (low m (v >>> 16) <<< 16) ||| (v.setWidth 16).setWidth 64 = low (m + 16) v := by
  apply BitVec.eq_of_getLsbD_eq
  intro i hi
  simp only [low, BitVec.getLsbD_or, BitVec.getLsbD_shiftLeft, BitVec.getLsbD_setWidth, BitVec.getLsbD_ushiftRight]
  by_cases hword : i < 16
  · simp [hword, hi, Nat.lt_add_left m hword]
  · have hup : 16 + (i - 16) = i := by omega
    have hm : i - 16 < m ↔ i < m + 16 := by omega
    have hlt : i - 16 < 64 := by omega
    simp [hword, hi, hup, hm, hlt]

/-- What a store wrote is read back, the lowest address the most significant (20_memory.md R52). -/
theorem State.valueAt_storeWords (s : State) (x : Quad) (k : Nat) (hk : k ≤ 2 ^ 64) (v : Quad) :
    (s.storeWords x k v).valueAt x k = low (16 * k) v := by
  induction k generalizing v with
  | zero => exact BitVec.eq_of_toNat_eq (by rw [toNat_low, Nat.mul_zero, pow_zero, Nat.mod_one]; rfl)
  | succ k ih =>
    have hupper : ((s.storeWords x k (v >>> 16)).storeWord (x + BitVec.ofNat 64 k) (v.setWidth 16)).valueAt x k =
        (s.storeWords x k (v >>> 16)).valueAt x k := by
      refine State.valueAt_congr fun j hj => ?_
      rw [State.wordOrZero, State.storeWord_memory, Memory.wordAt_putWord, if_neg (offset_ne hj (by omega))]
      rfl
    have hlast : ((s.storeWords x k (v >>> 16)).storeWord (x + BitVec.ofNat 64 k) (v.setWidth 16)).wordOrZero
        (x + BitVec.ofNat 64 k) = v.setWidth 16 := by
      rw [State.wordOrZero, State.storeWord_memory, Memory.wordAt_putWord, if_pos rfl, Option.getD_some]
    rw [State.storeWords, State.valueAt, hupper, hlast, ih (by omega), low_append_word, Nat.mul_succ]

/-- What was stored where it could be can be read. -/
theorem State.readable_storeWords {s : State} {x : Quad} {k : Nat} (h : s.writable x k) (v : Quad) :
    (s.storeWords x k v).readable x k := by
  obtain ⟨hvm, hmapped⟩ := h
  refine ⟨by rw [State.storeWords_vmEnable, hvm], fun j hj => ⟨?_, s.wordAt_storeWords_isSome x k v j hj⟩⟩
  rw [State.mapped_storeWords, hmapped j hj]

/-! ## Push and pop -/

theorem State.setD_getD (s : State) (r : RegNum) : s.setD r (s.getD r) = s := by
  have hd : s.d.set r (s.getD r) = s.d := Vector.set_getElem_self _
  rw [State.setD, hd]

/-- MOV Dn,(SP+) pops a value that can be read: Dn receives it in its low bits and SP moves past it. -/
theorem exec_pop (z : Size) (r : RegNum) (s : State) (h : s.readable s.sp (stepOf (sizeBits z))) :
    exec (.mov z (.dn r) (.form .spSp)) s =
      .next ((s.setSp (s.sp + BitVec.ofNat 64 (stepOf (sizeBits z)))).setD r
        (insertLow (sizeBits z) (s.getD r)
          (widen (sizeBits z) (sizeBits z) (s.valueAt s.sp (stepOf (sizeBits z)))))) := by
  have hread := (readSrc_eq_ok s _ (.form .spSp) _ (stepOf_sizeBits_pos z) _).2 ⟨h, rfl, rfl⟩
  rw [exec_eq_next]
  show (readSrc s (.form .spSp) (sizeBits z) >>= _) = _
  rw [hread]
  rfl

/-- MOV (-SP),Dn stores the low bits of Dn below SP, where it could store. -/
theorem exec_push {z : Size} {r : RegNum} {s t : State} (h : exec (.mov z (.form .pcSp) (.dn r)) s = .next t) :
    (s.setSp (pushAddress s .sp (sizeBits z))).writable (pushAddress s .sp (sizeBits z)) (stepOf (sizeBits z)) ∧
    t = (s.setSp (pushAddress s .sp (sizeBits z))).storeWords (pushAddress s .sp (sizeBits z)) (stepOf (sizeBits z))
      (widen (sizeBits z) (sizeBits z) (low (sizeBits z) (s.getD r))) := by
  obtain ⟨⟨_, _, hwrite⟩, ht⟩ := moveOp_ok (stepOf_sizeBits_pos z) ((exec_eq_next _ s t).1 h)
  exact ⟨hwrite, ht⟩

@[simp] theorem low_low (n : Nat) (v : Quad) : low n (low n v) = low n v :=
  low_congr (by rw [toNat_low, Nat.mod_mod])

/-- Widening a value to its own width gives its low bits. -/
theorem widen_self (n : Nat) (v : Quad) : widen n n v = low n v := by
  apply BitVec.eq_of_getLsbD_eq
  intro i hi
  simp only [widen, low, signExtendFrom, BitVec.getLsbD_setWidth, BitVec.getLsbD_signExtend, hi]
  by_cases hn : i < n
  · simp [hn, hi]
  · simp [hn]

/-- The words of an operand hold its bits. -/
theorem sixteen_mul_stepOf (z : Size) : 16 * stepOf (sizeBits z) = sizeBits z := by
  cases z <;> rfl

/-- Settles O32: the pop reads the words that the push stored, which are the low bits of the register. -/
theorem pushThenPop : Obligations.PushThenPop := by
  intro z r s t hpush
  obtain ⟨hwritable, ht⟩ := exec_push hpush
  have hsp : t.sp = pushAddress s .sp (sizeBits z) := by
    rw [ht, ← State.getSpecial_sp, State.getSpecial_storeWords]
    rfl
  have hd : t.getD r = s.getD r := by rw [ht, State.getD_storeWords, State.getD_setSp]
  have hreadable : t.readable t.sp (stepOf (sizeBits z)) := by
    rw [hsp, ht]
    exact State.readable_storeWords hwritable _
  have hvalue : t.valueAt t.sp (stepOf (sizeBits z)) = low (sizeBits z) (s.getD r) := by
    have hk : stepOf (sizeBits z) ≤ 2 ^ 64 := by cases z <;> decide
    rw [hsp, ht, State.valueAt_storeWords _ _ _ hk, sixteen_mul_stepOf, widen_self, low_low, low_low]
  refine ⟨hsp, fun v => ?_⟩
  have hpopped : (t.setPc v).valueAt t.sp (stepOf (sizeBits z)) = low (sizeBits z) (s.getD r) :=
    (State.valueAt_of_memory_eq (State.setPc_memory t v) _ _).trans hvalue
  have hback : t.sp + BitVec.ofNat 64 (stepOf (sizeBits z)) = s.sp := by
    rw [hsp]
    exact BitVec.sub_add_cancel _ _
  rw [exec_pop z r (t.setPc v) hreadable, State.setPc_sp, hpopped, hback, widen_self, low_low, State.getD_setPc, hd,
    insertLow_low_self, ← hd, ← State.getD_setPc t v, ← State.getD_setSp (t.setPc v) s.sp, State.setD_getD]

end Sys2Proof.Machine
end

section
/-! SUPPORT. The invariant (O15): every operation keeps it, so every template that answers does. -/

namespace Sys2Proof.Machine

section Updates

variable {s : State}

/-- The invariant reads five fields only. -/
theorem State.Inv.congr {t : State} (h : s.Inv) (hmemory : t.memory = s.memory) (hstored : t.stored = s.stored)
    (htarget : t.wtoTarget = s.wtoTarget) (hpair : t.comPosition = s.comPosition) (hvm : t.vmEnable = s.vmEnable) :
    t.Inv where
  memory := by rw [hmemory, h.memory]
  stored := by rw [hstored, h.stored]
  noTarget := by rw [htarget, h.noTarget]
  noPair := by rw [hpair, h.noPair]
  untranslated := by rw [hvm, h.untranslated]

theorem State.Inv.setPc (h : s.Inv) (v : Quad) : (s.setPc v).Inv := h.congr rfl rfl rfl rfl rfl

theorem State.Inv.setSpecial (h : s.Inv) (x : Special) (v : Quad) : (s.setSpecial x v).Inv := by
  cases x <;> exact h.congr rfl rfl rfl rfl rfl

/-- A store keeps both lists canonical and touches nothing else of the invariant. -/
theorem State.Inv.storeWords (h : s.Inv) (x : Quad) (k : Nat) (v : Quad) : (s.storeWords x k v).Inv where
  memory := State.wf_storeWords s x k v h.memory
  stored := State.rising_storeWords s x k v h.stored
  noTarget := by rw [State.storeWords_wtoTarget, h.noTarget]
  noPair := by rw [State.storeWords_comPosition, h.noPair]
  untranslated := by rw [State.storeWords_vmEnable, h.untranslated]

end Updates

section Operands

variable {s : State} (h : s.Inv)
include h

theorem State.Inv.srcState (src : Operand) (n : Nat) : (srcState s src n).Inv := by
  cases src with
  | form f => exact h.setSpecial _ _
  | _ => exact h

theorem State.Inv.dstState (dst : Operand) (n : Nat) : (dstState s dst n).Inv := by
  cases dst with
  | form f => exact h.setSpecial _ _
  | _ => exact h

theorem State.Inv.writeState (dst : Operand) (n opw : Nat) (v : Quad) : (writeState s dst n opw v).Inv := by
  cases dst with
  | an r | dn r => exact h.congr rfl rfl rfl rfl rfl
  | mem r => exact h.storeWords _ _ _
  | special x => exact h.setSpecial _ _
  | form f =>
    cases f with
    | pcSp | ipRp => exact (h.setSpecial _ _).storeWords _ _ _
    | spSp | rpRp => exact h

theorem State.Inv.displacementState (q : Quick) : (displacementState s q).Inv := by
  unfold Machine.displacementState
  split
  · exact h.setPc _
  · exact h

theorem State.Inv.branchState (cond : Quad → Bool) (dst : Operand) (n opw : Nat) (q : Quick) :
    (branchState cond s dst n opw q).Inv := by
  have hpast := (h.dstState dst n).displacementState q
  unfold Machine.branchState
  split
  · exact hpast.setPc _
  · exact hpast

/-- A template moves pointers, writes its destination, or changes control state; of the latter only DVM touches a field
of the invariant, and it turns translation off. -/
theorem Template.inv_after (p : Template) : (p.after s).Inv := by
  induction p with
  | stop | nop => exact h
  | move z dst src => exact (h.srcState _ _).writeState _ _ _ _
  | modify f w dst src => exact ((h.srcState _ _).dstState _ _).writeState _ _ _ _
  | set v w dst | clear z dst => exact h.writeState _ _ _ _
  | quick f z dst q | unary f z dst => exact (h.dstState _ _).writeState _ _ _ _
  | exchange x z dst => exact ((h.dstState _ _).writeState _ _ _ _).setSpecial _ _
  | branch cond w dst q => exact h.branchState _ _ _ _ _
  | loadUserPt | loadSuperPt | setInterrupts v => exact h.congr rfl rfl rfl rfl rfl
  | endTranslation => exact h.congr rfl rfl rfl rfl h.untranslated.symm
  | privileged m body ih => exact ih

end Operands

/-- Settles O15: the fetch moves PC, and the template of the fetched instruction keeps the invariant. -/
theorem stepKeepsInvariant : Obligations.StepKeepsInvariant := by
  intro s t hinv hstep
  obtain ⟨_, hexec⟩ := step_next hstep
  obtain ⟨_, rfl⟩ := exec_next hexec
  exact Template.inv_after (hinv.setPc _) _

end Sys2Proof.Machine
end

section
/-! SUPPORT. Which instructions leave memory alone (O20): a template stores through its written operand only. -/

namespace Sys2Proof.Machine

/-- A write to a register stores nothing. -/
theorem writeState_memory (s : State) {dst : Operand} (n opw : Nat) (v : Quad) (h : dst.isMemory = false) :
    (writeState s dst n opw v).memory = s.memory := by
  cases dst with
  | an r | dn r => rfl
  | special x => exact State.setSpecial_memory _ _ _
  | mem r | form f => cases h

theorem branchState_memory (cond : Quad → Bool) (s : State) (dst : Operand) (n opw : Nat) (q : Quick) :
    (branchState cond s dst n opw q).memory = s.memory := by
  have hpast : (displacementState (dstState s dst n) q).memory = s.memory := by
    unfold displacementState
    split <;> exact dstState_memory s dst n
  unfold branchState
  split <;> exact hpast

/-- A template that writes no operand in memory leaves memory alone. -/
theorem Template.memory_after {p : Template} (h : ∀ dst n, p.written = some (dst, n) → dst.isMemory = false)
    (s : State) : (p.after s).memory = s.memory := by
  induction p with
  | stop | nop | loadUserPt | loadSuperPt | setInterrupts | endTranslation => rfl
  | move z dst src => rw [after, writeState_memory _ _ _ _ (h dst _ rfl), srcState_memory]
  | modify f w dst src =>
    rw [after, writeState_memory _ _ _ _ (h dst _ rfl), modifyAt, dstState_memory, srcState_memory]
  | set v w dst | clear z dst => exact writeState_memory _ _ _ _ (h dst _ rfl)
  | quick f z dst q | unary f z dst => rw [after, writeState_memory _ _ _ _ (h dst _ rfl), dstState_memory]
  | exchange x z dst =>
    rw [after, State.setSpecial_memory, writeState_memory _ _ _ _ (h dst _ rfl), dstState_memory]
  | branch cond w dst q => exact branchState_memory _ _ _ _ _ _
  | privileged m body ih => exact ih h

/-- Settles O20: the written operand is the one that the template writes. -/
theorem onlyWrittenOperandStores : Obligations.OnlyWrittenOperandStores := by
  intro i s t hexec
  obtain ⟨_, rfl⟩ := exec_next hexec
  rw [written_eq]
  refine ⟨fun dst n hwritten hmem hform => ?_, fun hnone => ?_⟩
  · have hregister : dst.isMemory = false := by
      cases dst with
      | mem r => exact absurd rfl (hmem r)
      | form f => cases hform
      | an | dn | special => rfl
    refine Template.memory_after (fun dst' n' hwritten' => ?_) s
    obtain ⟨rfl, rfl⟩ := Prod.mk.inj (Option.some.inj (hwritten.symm.trans hwritten'))
    exact hregister
  · exact Template.memory_after (fun _ _ hsome => absurd (hnone.symm.trans hsome) nofun) s

end Sys2Proof.Machine
end

section
/-! SUPPORT. A memory write read back at the same width (O10) and word by word (O11). -/

namespace Sys2Proof.Machine

theorem low_eq_ofNat (n : Nat) (v : Quad) : low n v = BitVec.ofNat 64 (v.toNat % 2 ^ n) :=
  BitVec.eq_of_toNat_eq (by
    rw [toNat_low, BitVec.toNat_ofNat, Nat.mod_eq_of_lt (lt_of_le_of_lt (Nat.mod_le _ _) v.isLt)])

/-- Settles O10: what was stored is readable, and its value is the low bits of what was written. -/
theorem readAfterWrite : Obligations.ReadAfterWrite := by
  intro s t x v z hwrite
  have hpos := stepOf_sizeBits_pos z
  have hk : stepOf (sizeBits z) ≤ 2 ^ 64 := by cases z <;> decide
  obtain ⟨hwritable, rfl⟩ := (writeWords_eq_ok s t x _ hpos v).1 hwrite
  refine (readWords_eq_ok _ x _ hpos _).2 ⟨State.readable_storeWords hwritable v, ?_⟩
  rw [State.valueAt_storeWords s x _ hk v, sixteen_mul_stepOf, low_eq_ofNat]

/-- Word `j` of a store of `k` words has `k - 1 - j` words of the value below it (20_memory.md R52). -/
theorem State.wordAt_storeWords (s : State) (x : Quad) {k : Nat} (hk : k ≤ 2 ^ 64) (v : Quad) {j : Nat} (hj : j < k) :
    (s.storeWords x k v).memory.wordAt (x + BitVec.ofNat 64 j) = some ((v >>> (16 * (k - 1 - j))).setWidth 16) := by
  induction k generalizing v with
  | zero => omega
  | succ k ih =>
    rw [State.storeWords, State.storeWord_memory, Memory.wordAt_putWord]
    rcases Nat.lt_succ_iff_lt_or_eq.1 hj with hlt | rfl
    · have hbelow : 16 + 16 * (k - 1 - j) = 16 * (k + 1 - 1 - j) := by omega
      rw [if_neg (offset_ne hlt (by omega)), ih (by omega) _ hlt, ← BitVec.shiftRight_add, hbelow]
    · rw [if_pos rfl, Nat.add_sub_cancel, Nat.sub_self, Nat.mul_zero, BitVec.ushiftRight_zero]

theorem offset_zero (x : Quad) : x + BitVec.ofNat 64 0 = x := BitVec.add_zero x

/-- A read of one word is that word. -/
theorem readWords_one (s : State) (x : Quad) : readWords s x 1 = (readWord s x).map fun w => w.setWidth 64 := by
  rw [readWords, readWords, ok_bind, offset_zero]
  cases readWord s x with
  | error e => rfl
  | ok w => simp [bind, Except.bind, Except.map]

/-- Settles O11: each of the four words is read back by itself. -/
theorem mixedWidthRead : Obligations.MixedWidthRead := by
  intro s t x v hwrite i hi
  obtain ⟨⟨hvm, hmapped⟩, rfl⟩ := (writeWords_eq_ok s t x 4 (by omega) v).1 hwrite
  have hword : readWord (s.storeWords x 4 v) (x + BitVec.ofNat 64 i) =
      .ok ((v >>> (16 * (4 - 1 - i))).setWidth 16) := by
    refine (readWord_eq_ok _ _ _).2 ⟨?_, ?_, State.wordAt_storeWords s x (by omega) v hi⟩
    · rw [State.storeWords_vmEnable, hvm]
    · rw [State.mapped_storeWords, hmapped i hi]
  have hshift : 16 * (4 - 1 - i) = 48 - 16 * i := by omega
  rw [readWords_one, hword, hshift]
  refine congrArg Except.ok (BitVec.eq_of_toNat_eq ?_)
  simp only [BitVec.toNat_setWidth, BitVec.toNat_ushiftRight, BitVec.toNat_ofNat, Nat.shiftRight_eq_div_pow]

end Sys2Proof.Machine
end

section
/-! SUPPORT. Where no word can be taken from the instruction stream: the stops of the step (O6), also after a store to
the next instruction (O9). -/

namespace Sys2Proof.Machine

/-! ## Reads that stop -/

theorem readWord_unmapped {s : State} {x : Quad} (hvm : s.vmEnable = false) (h : s.mapped x = false) :
    readWord s x = .error (.fault (.outsideMemory x)) := by
  simp only [readWord, checkAccess, hvm, h]
  rfl

theorem readWord_noValue {s : State} {x : Quad} (hvm : s.vmEnable = false) (hmapped : s.mapped x = true)
    (h : s.memory.wordAt x = none) : readWord s x = .error (.fault (.noValue x)) := by
  rw [readWord, (checkAccess_eq_ok s x).2 ⟨hvm, hmapped⟩, ok_bind, h]

/-- A stream read stops where the read of its words does. -/
theorem streamRead_eq_error {s : State} {k : Nat} {e : Stop} (h : readWords s s.pc k = .error e) :
    streamRead s k = .error e := by
  rw [streamRead, h]
  rfl

/-- A word that the run has stored to is not taken from the stream (20_memory.md R61). -/
theorem streamRead_stored {s : State} {k j : Nat} (hr : s.readable s.pc k) (hj : j < k)
    (h : s.isStored (s.pc + BitVec.ofNat 64 j) = true) : streamRead s k = refuse .storeToCode := by
  have hany : s.anyStored s.pc k = true := by
    by_contra hnone
    have hfresh := (State.anyStored_eq_false s s.pc k).1 (Bool.eq_false_iff.2 hnone) j hj
    exact absurd (h.symm.trans hfresh) nofun
  rw [streamRead, (readWords_eq_ok s s.pc k (by omega) _).2 ⟨hr, rfl⟩, ok_bind, if_pos hany]

/-! ## The step -/

/-- A step stops where the fetch of its word does. -/
theorem step_eq_stop {s : State} {e : Stop} (h : streamRead s 1 = .error e) : step s = finish (.error e) := by
  have hfetch : fetch s = .error e := by
    rw [fetch, h]
    rfl
  rw [step, hfetch]
  cases e <;> rfl

theorem State.readable_one {s : State} {x : Quad} (hvm : s.vmEnable = false) (hmapped : s.mapped x = true)
    (hword : (s.memory.wordAt x).isSome = true) : s.readable x 1 := by
  refine ⟨hvm, fun j hj => ?_⟩
  obtain rfl : j = 0 := by omega
  rw [offset_zero]
  exact ⟨hmapped, hword⟩

/-- Settles O6: the first check that the word at PC fails gives the reason. -/
theorem stepStops : Obligations.StepStops := by
  intro s
  have hstop {e : Stop} (h : readWord s s.pc = .error e) : step s = finish (.error e) :=
    step_eq_stop (streamRead_eq_error (by rw [readWords_one, h]; rfl))
  refine ⟨fun hvm => ?_, fun hvm hmapped => hstop (readWord_unmapped hvm hmapped),
    fun hvm hmapped hword => hstop (readWord_noValue hvm hmapped hword), fun hvm hmapped hword hstored => ?_⟩
  · exact step_eq_stop (streamRead_eq_error (readWords_translated s s.pc 1 (by omega) hvm))
  · refine step_eq_stop (streamRead_stored (State.readable_one hvm hmapped hword) (j := 0) (by omega) ?_)
    rw [offset_zero, hstored]

/-- Every word of a store counts as stored to. -/
theorem State.isStored_storeWords (s : State) (x : Quad) {k : Nat} (v : Quad) {j : Nat} (hj : j < k) :
    (s.storeWords x k v).isStored (x + BitVec.ofNat 64 j) = true := by
  induction k generalizing v with
  | zero => omega
  | succ k ih =>
    rw [State.storeWords, State.isStored_storeWord, Bool.or_eq_true]
    rcases Nat.lt_succ_iff_lt_or_eq.1 hj with hlt | rfl
    · exact Or.inr (ih _ hlt)
    · exact Or.inl (decide_eq_true rfl)

/-- MOV.W (An),Dn that answers has stored one word at An, where it could. -/
theorem exec_store_word {a d : RegNum} {s t : State} (h : exec (.mov .w (.mem a) (.dn d)) s = .next t) :
    s.writable (s.getA a) 1 ∧ ∃ v, t = s.storeWords (s.getA a) 1 v := by
  obtain ⟨⟨_, _, hwritable⟩, ht⟩ := moveOp_ok (stepOf_sizeBits_pos .w) ((exec_eq_next _ s t).1 h)
  exact ⟨hwritable, _, ht⟩

/-- Settles O9: the store leaves PC, and the word there, mapped and with a value, counts as stored to. -/
theorem storeToNextInstruction : Obligations.StoreToNextInstruction := by
  intro s t a d hexec hpc
  obtain ⟨hwritable, v, rfl⟩ := exec_store_word hexec
  rw [hpc] at hwritable ⊢
  refine step_eq_stop (streamRead_stored (j := 0) ?_ (by omega) ?_)
  · rw [State.storeWords_pc]
    exact State.readable_storeWords hwritable v
  · rw [State.storeWords_pc]
    exact State.isStored_storeWords s s.pc v (by omega)

end Sys2Proof.Machine
end

section
/-! SUPPORT. Every access that cannot be carried out stops its instruction (O12): what a template that answers has found
accessible, and the stops of a MOV from and to memory. -/

namespace Sys2Proof.Machine

/-! ## What an instruction that completes found accessible -/

/-- The accesses that a template makes are admitted and carried out. -/
def Template.ready (p : Template) (s : State) : Prop :=
  match p with
  | move z dst src => moveReady s dst src (sizeBits z)
  | modify _ w dst src => modifyReady s dst src w.bits
  | set _ w dst => writeReady s dst w.bits
  | clear z dst => writeReady s dst (sizeBits z)
  | quick _ z dst _ | unary _ z dst | exchange _ z dst => updateReady s dst (sizeBits z)
  | branch _ w dst q => branchReady s dst w.bits q
  | loadUserPt | loadSuperPt => s.streamable 4
  | privileged _ body => body.ready s
  | stop .. | nop | setInterrupts .. | endTranslation => True

theorem operandsReady_eq (i : Instr) (s : State) : operandsReady s i = (templateOf i).ready s := by
  cases i <;> rfl

theorem Template.run_ready {p : Template} {s t : State} (h : p.run s = .ok t) : p.ready s := by
  induction p with
  | stop | nop | setInterrupts | endTranslation => trivial
  | move z dst src => exact (moveOp_ok (stepOf_sizeBits_pos z) h).1
  | modify f w dst src => exact (modifyOp_ok w.stepOf_bits_pos h).1
  | set v w dst => exact (setOp_ok w.stepOf_bits_pos h).1
  | clear z dst =>
    obtain ⟨⟨⟩, _, hset⟩ := (bind_eq_ok _ _ _).1 h
    exact (setOp_ok (stepOf_sizeBits_pos z) hset).1
  | quick f z dst q => exact (quickOp_ok (stepOf_sizeBits_pos z) h).1
  | unary f z dst => exact (unaryOp_ok (stepOf_sizeBits_pos z) h).2.1
  | exchange x z dst => exact (exchangeOp_ok (stepOf_sizeBits_pos z) h).2.1
  | branch cond w dst q => exact (branchOp_ok w.stepOf_bits_pos h).1
  | loadUserPt | loadSuperPt =>
    obtain ⟨⟨v, s1⟩, hread, _⟩ := (bind_eq_ok _ _ _).1 h
    exact ((streamRead_eq_ok _ _ _ (by decide) _).1 hread).1
  | privileged m body ih => exact ih ((privileged_eq_ok m s t _).1 h).2

/-! ## MOV from memory -/

/-- A memory operand stops the source read where the read of its words stops. -/
theorem readSrc_eq_error {s : State} {src : Operand} {n : Nat} {x : Quad} {e : Stop}
    (hx : sourceAddress s src = some x) (h : readWords s x (stepOf n) = .error e) : readSrc s src n = .error e := by
  have hread {β : Type} (f : Quad → Except Stop β) : (readWords s x (stepOf n) >>= f) = .error e := by
    rw [h]
    rfl
  cases src with
  | an r | dn r | special r => cases hx
  | mem r =>
    obtain rfl := Option.some.inj hx
    exact hread _
  | form f => cases f <;> (obtain rfl := Option.some.inj hx; exact hread _)

/-- MOV to Dn clashes with no source, and stops where its source read does. -/
theorem exec_mov_eq_stop {s : State} (z : Size) (d : RegNum) {src : Operand} {e : Stop}
    (h : readSrc s src (sizeBits z) = .error e) : exec (.mov z (.dn d) src) s = finish (.error e) := by
  have hclash : samePointer .write (.dn d) src = false := by cases src <;> rfl
  have hpointers := (checkPointers_eq_ok .write (.dn d) src).2 hclash
  have hform : checkWriteForm (.dn d) = .ok () := rfl
  rw [exec_eq_run]
  show finish (moveOp _ _ (.dn d) src s) = _
  rw [moveOp, hform, ok_bind, hpointers, ok_bind, h]
  rfl

/-! ## MOV to memory -/

/-- MOV from Dn to a memory operand is a write of its words, of which only a pointer's movement goes before. -/
theorem exec_mov_eq_write {s : State} (z : Size) (d : RegNum) {dst : Operand} {x : Quad}
    (hx : storeAddress s dst (sizeBits z) = some x) :
    ∃ (u : State) (v : Quad), u.vmEnable = s.vmEnable ∧ (∀ y, u.mapped y = s.mapped y) ∧
      exec (.mov z dst (.dn d)) s = finish (writeWords u x (stepOf (sizeBits z)) v) := by
  cases dst with
  | an r | dn r | special r => cases hx
  | mem r =>
    obtain rfl := Option.some.inj hx
    exact ⟨s, _, rfl, fun _ => rfl, rfl⟩
  | form f =>
    cases f with
    | pcSp =>
      obtain rfl := Option.some.inj hx
      exact ⟨s.setSp (pushAddress s .sp (sizeBits z)), _, rfl, fun _ => rfl, rfl⟩
    | ipRp =>
      obtain rfl := Option.some.inj hx
      exact ⟨s.setRp (pushAddress s .rp (sizeBits z)), _, rfl, fun _ => rfl, rfl⟩
    | spSp | rpRp => cases hx

/-- Settles O12: a template that answers was ready; MOV stops with its access, and the access with its first word. -/
theorem memoryStops : Obligations.MemoryStops := by
  refine ⟨fun i s t hexec => ?_, fun s z d o x j hj =>
    ⟨fun hx => ?_, fun hx => ?_, fun hreadable hstored => ?_⟩⟩
  · rw [operandsReady_eq]
    exact Template.run_ready ((exec_eq_next i s t).1 hexec)
  · have hstop {e : Stop} (h : readWords s x (stepOf (sizeBits z)) = .error e) :
        exec (.mov z (.dn d) o) s = finish (.error e) := exec_mov_eq_stop z d (readSrc_eq_error hx h)
    refine ⟨fun hvm => hstop (readWords_translated s x _ (by omega) hvm), fun hreadable hmapped => ?_,
      fun hreadable hmapped hword => ?_⟩
    · exact hstop (readWords_eq_error s x _ j hj hreadable _ (readWord_unmapped hreadable.1 hmapped))
    · exact hstop (readWords_eq_error s x _ j hj hreadable _ (readWord_noValue hreadable.1 hmapped hword))
  · obtain ⟨u, v, huvm, humapped, hexec⟩ := exec_mov_eq_write z d hx
    rw [hexec]
    refine ⟨fun hvm => ?_, fun hwritable hmapped => ?_⟩
    · rw [writeWords_translated u x _ v (by omega) (huvm.trans hvm)]
      rfl
    · obtain ⟨hvm, hbefore⟩ := hwritable
      have huwritable : u.writable x j := ⟨huvm.trans hvm, fun k hk => (humapped _).trans (hbefore k hk)⟩
      rw [writeWords_eq_error u x _ j v hj huwritable ((humapped _).trans hmapped)]
      rfl
  · exact exec_mov_eq_stop z d (src := .form .pcSp) (streamRead_stored hreadable hj hstored)

end Sys2Proof.Machine
end

section
/-! SUPPORT. The encoder undoes the decoder (30_encoding.md R80 to R108): every word stands for a well-formed instruction,
shown for each function of the decoder in turn (O1, O2, O4). -/

namespace Sys2Proof

/-! ## Fields -/

/-- A word is made of its fields (30_encoding.md R80). -/
@[simp] theorem wordOf_fieldsOf (w : Word) : wordOf (fieldsOf w) = w := by
  simp only [wordOf, fieldsOf]
  simp only [BitVec.extractLsb'_append_extractLsb'_eq_extractLsb', BitVec.extractLsb'_eq_self]

@[simp] theorem encodeOperand_decodeOperand (f : BitVec 5) : encodeOperand (decodeOperand f) = f := by
  revert f; decide

/-- A size code other than 11 is the code of its size (30_encoding.md R85). -/
theorem encodeSize_decodeSize (c : BitVec 2) (h : c ≠ 3#2) : encodeSize (decodeSize c) = c := by
  revert c; decide

@[simp] theorem encodePrecision_decodePrecision (c : BitVec 1) : encodePrecision (decodePrecision c) = c := by
  revert c; decide

theorem Operand.isPc_iff (o : Operand) : o.isPc = true ↔ o = .special .pc := by
  cases o with
  | special x => cases x <;> simp [Operand.isPc]
  | an | mem | dn | form => simp [Operand.isPc]

/-- Case split over the eight values of a 3-bit field, such as `op` (30_encoding.md R80). -/
theorem code3_cases {P : Code3 → Prop} (c : Code3) (zero : P 0#3) (one : P 1#3) (two : P 2#3) (three : P 3#3)
    (four : P 4#3) (five : P 5#3) (six : P 6#3) (seven : P 7#3) : P c := by
  have hvalues : ∀ c : Code3,
      c = 0#3 ∨ c = 1#3 ∨ c = 2#3 ∨ c = 3#3 ∨ c = 4#3 ∨ c = 5#3 ∨ c = 6#3 ∨ c = 7#3 := by decide
  rcases hvalues c with rfl | rfl | rfl | rfl | rfl | rfl | rfl | rfl <;> assumption

/-- The fields of COM's number are the fields it was read from (45_system_ops.md R250). -/
theorem comFields_comNumber (op : BitVec 3) (dst : Special) (src : BitVec 5) :
    comFields (comNumber op (encodeOperand (.special dst))) src =
      { op := op, dst := encodeOperand (.special dst), sec := 0#1, size := 3#2, src := src } := by
  have hop : (comNumber op (encodeOperand (.special dst))).extractLsb' 2 3 = op := BitVec.extractLsb'_append_eq_left
  have hlow : (comNumber op (encodeOperand (.special dst))).extractLsb' 0 2 =
      (encodeOperand (.special dst)).extractLsb' 1 2 := BitVec.extractLsb'_append_eq_right
  rw [comFields, comDst, hop, hlow]
  cases dst <;> rfl

/-! ## What a decoded instruction owes its fields -/

/-- The instruction is well formed and its fields are `f`. -/
structure Instr.StandsFor (i : Instr) (f : Fields) : Prop where
  wf : i.wf = true
  fields : encodeFields i = f

/-! ## Size 11 -/

theorem standsFor_decodeSupervisor (op : BitVec 3) : (decodeSupervisor op).StandsFor (pairFields op 1#1 .sp .ip) := by
  cases op using code3_cases <;> exact ⟨rfl, rfl⟩

theorem standsFor_decodeHypervisor (op : BitVec 3) : (decodeHypervisor op).StandsFor (pairFields op 1#1 .rp .ip) := by
  cases op using code3_cases <;> exact ⟨rfl, rfl⟩

theorem standsFor_decodePairD (op : BitVec 3) (dst src : Special) :
    (decodePairD op dst src).StandsFor (pairFields op 1#1 dst src) := by
  cases src with
  | pc => cases dst <;> exact ⟨rfl, rfl⟩
  | ip =>
    cases dst with
    | pc | ip => exact ⟨rfl, rfl⟩
    | sp => exact standsFor_decodeSupervisor op
    | rp => exact standsFor_decodeHypervisor op
  | sp | rp => exact ⟨rfl, rfl⟩

theorem standsFor_decodePairF (op : BitVec 3) (dst src : Special) :
    (decodePairF op (encodeOperand (.special dst)) dst src).StandsFor (pairFields op 0#1 dst src) := by
  cases src with
  | pc => exact ⟨rfl, comFields_comNumber op dst _⟩
  | ip | sp | rp => exact ⟨rfl, rfl⟩

/-- The D @ forms by their destination, and @COM (30_encoding.md R100). -/
theorem standsFor_decodeAt (f : Fields) (dst : Special) (src : Operand) (hdst : f.dst = encodeOperand (.special dst))
    (hsrc : f.src = encodeOperand src) (hsize : f.size = 3#2) (h : src.isSpecial = false) :
    (decodeAt f dst src).StandsFor f := by
  have hwf : (!src.isSpecial) = true := by rw [h]; rfl
  obtain ⟨op, _, sec, _, _⟩ := f
  subst hdst hsrc hsize
  rcases BitVec.eq_zero_or_eq_one sec with rfl | rfl
  · exact ⟨hwf, comFields_comNumber op dst _⟩
  · cases dst <;> exact ⟨hwf, rfl⟩

/-- The float map, where FCN leaves it the word: a float operation has no source special direct. -/
theorem standsFor_decodeFloat (op : BitVec 3) (p : Precision) (dst : Operand) (src : BitVec 5)
    (hdst : dst.isSpecial = false) (hsrc : op.extractLsb' 2 1 = 0#1 → (decodeOperand src).isSpecial = false) :
    (decodeFloat op p dst src).StandsFor (floatFields op p dst src) := by
  have hbranch : (!dst.isSpecial) = true := by rw [hdst]; rfl
  have hoperation (h : op.extractLsb' 2 1 = 0#1) : (!dst.isSpecial && !(decodeOperand src).isSpecial) = true := by
    rw [hdst, hsrc h]; rfl
  have hfields (fn : BitVec 3) :
      floatFields fn p dst (encodeOperand (decodeOperand src)) = floatFields fn p dst src := by
    rw [encodeOperand_decodeOperand]
  cases op using code3_cases with
  | zero | one | two | three => exact ⟨hoperation rfl, hfields _⟩
  | four | five | six | seven => exact ⟨hbranch, rfl⟩

/-- FCN has `op` 0 to 3, whose low two bits it keeps. -/
theorem standsFor_fcn (op : BitVec 3) (p : Precision) (dst : Operand) (src : Special) (hop : op.extractLsb' 2 1 = 0#1)
    (hdst : dst.isSpecial = false) :
    (Instr.fcn (op.extractLsb' 0 2) p dst src).StandsFor (floatFields op p dst (encodeOperand (.special src))) := by
  have hcode : 0#1 ++ op.extractLsb' 0 2 = op := by
    rw [← hop]
    exact BitVec.extractLsb'_append_extractLsb'
  refine ⟨?_, ?_⟩
  · show (!dst.isSpecial) = true
    rw [hdst]
    rfl
  · rw [encodeFields, hcode]

/-- Size 11 in the precedence of 30_encoding.md R97. -/
theorem standsFor_decodeSizeThree (f : Fields) (h : f.size = 3#2) : (decodeSizeThree f).StandsFor f := by
  obtain ⟨op, dstField, sec, _, srcField⟩ := f
  subst h
  obtain ⟨dst, rfl⟩ : ∃ dst, encodeOperand dst = dstField := ⟨_, encodeOperand_decodeOperand dstField⟩
  obtain ⟨src, rfl⟩ : ∃ src, encodeOperand src = srcField := ⟨_, encodeOperand_decodeOperand srcField⟩
  cases dst with
  | special x =>
    cases src with
    | special y =>
      rcases BitVec.eq_zero_or_eq_one sec with rfl | rfl
      · simpa [decodeSizeThree, pairFields] using standsFor_decodePairF op x y
      · simpa [decodeSizeThree, pairFields] using standsFor_decodePairD op x y
    | an | mem | dn | form =>
      simpa [decodeSizeThree] using standsFor_decodeAt _ x _ rfl rfl rfl rfl
  | an | mem | dn | form =>
    cases src with
    | special y =>
      by_cases hop : op.extractLsb' 2 1 = 0#1
      · simpa [decodeSizeThree, hop, floatFields] using standsFor_fcn op (decodePrecision sec) _ y hop rfl
      · simpa [decodeSizeThree, hop, floatFields] using
          standsFor_decodeFloat op (decodePrecision sec) _ (encodeOperand (.special y)) rfl (absurd · hop)
    | an | mem | dn | form =>
      simpa [decodeSizeThree, floatFields] using
        standsFor_decodeFloat op (decodePrecision sec) _ (encodeOperand _) rfl
          (fun _ => by rw [decodeOperand_encodeOperand]; rfl)

/-! ## Column D at sizes .W, .L, .Q -/

theorem standsFor_decodeHalves (z : Size) (dst : Operand) (fn : BitVec 3) :
    (decodeHalves z dst fn).StandsFor (halvesFields fn z dst) := by
  unfold decodeHalves
  split
  · next h =>
    obtain rfl := (Operand.isPc_iff dst).1 h
    exact ⟨rfl, rfl⟩
  · next h =>
    have hwf : (!dst.isPc) = true := by simpa using h
    cases fn using code3_cases <;> exact ⟨hwf, rfl⟩

/-- Function 4 is WTO at size .Q and the unassigned group below it (44_cfr.md R205). -/
theorem standsFor_decodeFulls (z : Size) (dst : Operand) (fn : BitVec 3) :
    (decodeFulls z dst fn).StandsFor (fullsFields fn z dst) := by
  unfold decodeFulls
  split
  · next h =>
    obtain rfl := (Operand.isPc_iff dst).1 h
    exact ⟨rfl, rfl⟩
  · next h =>
    have hwf : (!dst.isPc) = true := by simpa using h
    cases fn using code3_cases with
    | four => cases z <;> exact ⟨hwf, rfl⟩
    | zero | one | two | three | five | six | seven => exact ⟨hwf, rfl⟩

/-- The field of an operand in mode An or Dn, from its mode and the number that is the function. -/
theorem encodeOperand_an (r : RegNum) : encodeOperand (.an r) = 0#2 ++ (encodeOperand (.an r)).extractLsb' 0 3 := by
  revert r; decide

theorem encodeOperand_dn (r : RegNum) : encodeOperand (.dn r) = 2#2 ++ (encodeOperand (.dn r)).extractLsb' 0 3 := by
  revert r; decide

/-- CFR's sub-decode by its source (30_encoding.md R101). -/
theorem standsFor_decodeCfr (z : Size) (dst src : Operand) :
    (decodeCfr z dst src ((encodeOperand src).extractLsb' 0 3)).StandsFor (columnD 4#3 z dst src) := by
  cases src with
  | an r =>
    have h := standsFor_decodeHalves z dst ((encodeOperand (.an r)).extractLsb' 0 3)
    rwa [halvesFields, ← encodeOperand_an r] at h
  | dn r =>
    have h := standsFor_decodeFulls z dst ((encodeOperand (.dn r)).extractLsb' 0 3)
    rwa [fullsFields, ← encodeOperand_dn r] at h
  | special x => cases x <;> exact ⟨rfl, rfl⟩
  | mem | form => exact ⟨rfl, rfl⟩

/-- MLL, AND, ORR and XOR, each with its NOP forms (30_encoding.md R102 (a)): it is enough that each of the five
constructors stands for its fields where it is well formed. -/
theorem standsFor_decodeNopProne {op : BitVec 3} {dstRefused srcRefused : Size → Form → Instr}
    {nopDst nopSrc : Size → Operand → Instr} {operation : Size → Operand → Operand → Instr} (z : Size) (dst src : Operand)
    (hdstRefused : ∀ f, (dstRefused z f).StandsFor (columnD op z (.special .pc) (.form f)))
    (hsrcRefused : ∀ f, (srcRefused z f).StandsFor (columnD op z (.form f) (.special .pc)))
    (hnopDst : ∀ o, (!o.isForm) = true → (nopDst z o).StandsFor (columnD op z (.special .pc) o))
    (hnopSrc : ∀ o, (!o.isForm && !o.isPc) = true → (nopSrc z o).StandsFor (columnD op z o (.special .pc)))
    (hoperation : ∀ a b, (!a.isPc && !b.isPc) = true → (operation z a b).StandsFor (columnD op z a b)) :
    (decodeNopProne z dst src dstRefused srcRefused nopDst nopSrc operation).StandsFor (columnD op z dst src) := by
  unfold decodeNopProne
  split
  · next hdst =>
    obtain rfl := (Operand.isPc_iff dst).1 hdst
    cases src with
    | form f => exact hdstRefused f
    | an | mem | dn | special => exact hnopDst _ rfl
  · next hdst =>
    split
    · next hsrc =>
      obtain rfl := (Operand.isPc_iff src).1 hsrc
      cases dst with
      | form f => exact hsrcRefused f
      | special x => exact hnopSrc _ (by simpa [Operand.isForm] using hdst)
      | an | mem | dn => exact hnopSrc _ rfl
    · next hsrc => exact hoperation dst src (by simp [hdst, hsrc])

theorem standsFor_decodeColumnD (op : BitVec 3) (z : Size) (dst src : Operand) :
    (decodeColumnD z (columnD op z dst src)).StandsFor (columnD op z dst src) := by
  simp only [decodeColumnD, columnD, decodeOperand_encodeOperand]
  cases op using code3_cases with
  | zero | one | three => exact ⟨rfl, rfl⟩
  | four => exact standsFor_decodeCfr z dst src
  | two | five | six | seven =>
    refine standsFor_decodeNopProne z dst src (fun _ => ⟨rfl, rfl⟩) (fun _ => ⟨rfl, rfl⟩) ?_ ?_ ?_
    · exact fun _ h => ⟨h, rfl⟩
    · exact fun _ h => ⟨h, rfl⟩
    · exact fun _ _ h => ⟨h, rfl⟩

/-! ## Column F at sizes .W, .L, .Q -/

/-- A quick branch with its NOP forms (30_encoding.md R102 (b)): it is enough that each of the four constructors stands
for its fields where it is well formed. -/
theorem standsFor_decodeQuickBranch {op : BitVec 3} {zeroRefused minusRefused : Size → Instr}
    {nop : Size → Quick → Instr} {branch : Size → Operand → Quick → Instr} (z : Size) (dst : Operand) (q : Quick)
    (hzero : (zeroRefused z).StandsFor (columnF op z (.special .pc) 0#5))
    (hminus : (minusRefused z).StandsFor (columnF op z (.special .pc) 31#5))
    (hnop : (!longMarker q) = true → (nop z q).StandsFor (columnF op z (.special .pc) q))
    (hbranch : (!dst.isPc) = true → (branch z dst q).StandsFor (columnF op z dst q)) :
    (decodeQuickBranch z dst q zeroRefused minusRefused nop branch).StandsFor (columnF op z dst q) := by
  unfold decodeQuickBranch
  split
  · next hdst =>
    obtain rfl := (Operand.isPc_iff dst).1 hdst
    split
    · next h => exact h ▸ hzero
    · next hne =>
      split
      · next h => exact h ▸ hminus
      · next hne' => exact hnop (by simp [longMarker, hne, hne'])
  · next hdst => exact hbranch (by simpa using hdst)

theorem standsFor_decodeColumnF (op : BitVec 3) (z : Size) (dst : Operand) (q : Quick) :
    (decodeColumnF z (columnF op z dst q)).StandsFor (columnF op z dst q) := by
  simp only [decodeColumnF, columnF, decodeOperand_encodeOperand]
  cases op using code3_cases with
  | zero | one | three => exact ⟨rfl, rfl⟩
  | two =>
    show (if dst.isPc then Instr.mlqNop z q else .mlq z dst q).StandsFor (columnF 2#3 z dst q)
    split
    · next h =>
      obtain rfl := (Operand.isPc_iff dst).1 h
      exact ⟨rfl, rfl⟩
    · next h => exact ⟨by simpa [Instr.wf] using h, rfl⟩
  | four | five | six | seven =>
    refine standsFor_decodeQuickBranch z dst q ⟨rfl, rfl⟩ ⟨rfl, rfl⟩ ?_ ?_
    · exact fun h => ⟨h, rfl⟩
    · exact fun h => ⟨h, rfl⟩

/-! ## Words -/

/-- Every five fields are those of the instruction they decode to, size 11 first, then the two columns. -/
theorem standsFor_decodeFields (f : Fields) : (decodeFields f).StandsFor f := by
  unfold decodeFields
  split
  · next h => exact standsFor_decodeSizeThree f h
  · next hsize =>
    obtain ⟨op, dst, sec, size, src⟩ := f
    rcases BitVec.eq_zero_or_eq_one sec with rfl | rfl
    · simpa [columnF, encodeSize_decodeSize size hsize] using
        standsFor_decodeColumnF op (decodeSize size) (decodeOperand dst) src
    · simpa [columnD, encodeSize_decodeSize size hsize] using
        standsFor_decodeColumnD op (decodeSize size) (decodeOperand dst) (decodeOperand src)

/-- Settles O1: the decoder gives back every instruction field by field. -/
theorem decodeOfEncode : Obligations.DecodeOfEncode := decodeWord_encode

/-- Settles O2: a word is the word of its fields, which its instruction stands for. -/
theorem everyWordDecodes : Obligations.EveryWordDecodes := by
  intro w
  obtain ⟨hwf, hfields⟩ := standsFor_decodeFields (fieldsOf w)
  refine ⟨hwf, ?_⟩
  calc encode (decodeWord w) = wordOf (encodeFields (decodeFields (fieldsOf w))) := rfl
    _ = wordOf (fieldsOf w) := by rw [hfields]
    _ = w := wordOf_fieldsOf w

/-- Settles O4: the two bytes of an instruction make its word again, whatever follows them. -/
theorem decodeBytes : Obligations.DecodeBytes := by
  intro i rest hi
  show Except.ok (decodeWord (wordOfBytes (hiByte (encode i)) (loByte (encode i))), rest) = _
  rw [Machine.wordOfBytes_hi_lo, decodeWord_encode i hi]

end Sys2Proof
end

section
/-! SUPPORT. Where the two bytes of a fetched word stand in memory (O7). -/

namespace Sys2Proof.Machine

@[simp] theorem hiByte_wordOfBytes (hi lo : Byte) : hiByte (wordOfBytes hi lo) = hi :=
  BitVec.extractLsb'_append_eq_left

@[simp] theorem loByte_wordOfBytes (hi lo : Byte) : loByte (wordOfBytes hi lo) = lo :=
  BitVec.extractLsb'_append_eq_right

/-- Memory holds a word where it holds its two bytes, the high one first (20_memory.md R52). -/
theorem Memory.wordAt_eq_some (m : Memory) (x : Quad) (w : Word) :
    m.wordAt x = some w ↔
      m.byteAt (2 * x.toNat) = some (hiByte w) ∧ m.byteAt (2 * x.toNat + 1) = some (loByte w) := by
  constructor
  · unfold Memory.wordAt
    split
    · next hi lo hhi hlo =>
      intro hw
      obtain rfl := Option.some.inj hw
      rw [hhi, hlo, hiByte_wordOfBytes, loByte_wordOfBytes]
      exact ⟨rfl, rfl⟩
    · intro hw
      cases hw
  · rintro ⟨hhi, hlo⟩
    simp [Memory.wordAt, hhi, hlo]

/-- A fetch that answers has found its word at PC. -/
theorem wordAt_of_fetch {s t : State} {w : Word} (h : fetch s = .ok (w, t)) : s.memory.wordAt s.pc = some w := by
  obtain ⟨hstream, hw, -⟩ := (fetch_eq_ok s t w).1 h
  obtain ⟨-, hvalue⟩ := hstream.1.2 0 (by omega)
  obtain ⟨v, hv⟩ := Option.isSome_iff_exists.1 hvalue
  rw [offset_zero] at hv
  rw [hw, State.wordOrZero, hv]
  rfl

/-- Settles O7: the fetched word stands at PC, high byte first. -/
theorem fetchByteOrder : Obligations.FetchByteOrder := by
  intro s t w h
  exact (Memory.wordAt_eq_some s.memory s.pc w).1 (wordAt_of_fetch h)

end Sys2Proof.Machine
end

section
/-! SUPPORT. The operands that instructions refuse: two that update one pointer (O23, O24) and the destinations "(+SP)" and
"(+RP)" (O25). -/

namespace Sys2Proof.Machine

/-! ## Two operands on one pointer -/

/-- Settles O23: only special memory forms update a pointer, so of the pairs of operand kinds all but three never clash. -/
theorem pointerClashes : Obligations.PointerClashes := by
  intro dst src hsp hrp
  cases src with
  | an r | mem r | dn r => simp [samePointer, writeClashes, readClashes]
  | special x =>
    cases dst with
    | an r | mem r | dn r | special y => simp [samePointer, dstUpdates, writeClashes, readClashes]
    | form f =>
      cases f with
      | pcSp | ipRp => cases x <;> decide
      | spSp => exact absurd rfl hsp
      | rpRp => exact absurd rfl hrp
  | form g =>
    cases dst with
    | an r | mem r | dn r => simp [samePointer, dstUpdates, writeClashes, readClashes]
    | special y => cases y <;> cases g <;> decide
    | form f =>
      cases f with
      | pcSp | ipRp => cases g <;> decide
      | spSp => exact absurd rfl hsp
      | rpRp => exact absurd rfl hrp

/-- The destinations of both lists have a write form. -/
theorem hasWriteForm_of_clash {dst src : Operand} (h : (dst, src) ∈ writeClashes ∨ (dst, src) ∈ readClashes) :
    dst ≠ .form .spSp ∧ dst ≠ .form .rpRp := by
  have hlists : ∀ c ∈ writeClashes ++ readClashes, c.1 ≠ .form .spSp ∧ c.1 ≠ .form .rpRp := by decide
  exact hlists (dst, src) (List.mem_append.2 h)

theorem checkPointers_of_clash {use : DstUse} {dst src : Operand} (h : samePointer use dst src = true) :
    checkPointers use dst src = refuse .samePointerTwice := if_pos h

/-- MOV to a destination that has a write form checks its pointers before it reads its source. -/
theorem moveOp_refused {dst src : Operand} (hwrites : dst ≠ .form .spSp ∧ dst ≠ .form .rpRp)
    (h : samePointer .write dst src = true) (n opw : Nat) (s : State) :
    moveOp n opw dst src s = refuse .samePointerTwice := by
  rw [moveOp, (checkWriteForm_eq_ok dst).2 hwrites, ok_bind, checkPointers_of_clash h]
  rfl

/-- An instruction that reads and writes a destination that has a write form checks its pointers before it reads. -/
theorem modifyOp_refused {dst src : Operand} (hwrites : dst ≠ .form .spSp ∧ dst ≠ .form .rpRp)
    (h : samePointer .modify dst src = true) (f : Quad → Quad → Quad) (n opw : Nat) (s : State) :
    modifyOp f n opw dst src s = refuse .samePointerTwice := by
  rw [modifyOp, (checkWriteForm_eq_ok dst).2 hwrites, ok_bind, checkPointers_of_clash h]
  rfl

/-- Settles O24: the lists are the pairs that the pointer check refuses (O23), and the ten instructions on both lists are
of one template. -/
theorem samePointerRefused : Obligations.SamePointerRefused := by
  intro dst src z p s
  refine ⟨fun hclash => ?_, fun hclash => ?_⟩
  · have hwrites := hasWriteForm_of_clash (.inl hclash)
    have hsame := (pointerClashes dst src hwrites.1 hwrites.2).1.2 hclash
    exact congrArg finish (moveOp_refused hwrites hsame _ _ s)
  · have hwrites := hasWriteForm_of_clash hclash
    have hsame := (pointerClashes dst src hwrites.1 hwrites.2).2.2 hclash
    have hrefused {i : Instr} {f : Quad → Quad → Quad} {w : Width} (hi : templateOf i = .modify f w dst src) :
        exec i s = .refused .samePointerTwice := by
      rw [exec_eq_run, hi]
      exact congrArg finish (modifyOp_refused hwrites hsame f _ _ s)
    exact ⟨hrefused rfl, hrefused rfl, hrefused rfl, hrefused rfl, hrefused rfl, hrefused rfl, hrefused rfl, hrefused rfl,
      hrefused rfl, hrefused rfl⟩

/-! ## Destinations without a write form -/

/-- A template that writes a destination without a write form refuses it before it reads an operand. -/
theorem Template.run_plusWrite {p : Template} {f : Form} {n : Nat}
    (hform : checkWriteForm (.form f) = refuse .plusWriteForm) (hwritten : p.written = some (.form f, n))
    (hopen : ∀ m body, p ≠ .privileged m body) (s : State) :
    p.run s = refuse .plusWriteForm := by
  have hstop {β : Type} (g : Unit → Except Stop β) : (checkWriteForm (.form f) >>= g) = refuse .plusWriteForm := by
    rw [hform]
    rfl
  cases p with
  | move | modify | set | quick | unary | exchange =>
    obtain ⟨rfl, -⟩ := Prod.mk.inj (Option.some.inj hwritten)
    exact hstop _
  | clear z dst =>
    obtain ⟨rfl, -⟩ := Prod.mk.inj (Option.some.inj hwritten)
    rw [Template.run, (checkUnaryWidth_eq_ok (sizeBits z) (.form f)).2 rfl, ok_bind]
    exact hstop _
  | stop | nop | branch | loadUserPt | loadSuperPt | setInterrupts | endTranslation => cases hwritten
  | privileged m body => exact absurd rfl (hopen m body)

/-- No privileged instruction writes an operand. -/
theorem not_privileged_of_written {i : Instr} {o : Operand × Nat} (h : written i = some o) (m : Mode) (body : Template) :
    templateOf i ≠ .privileged m body := by
  cases i with
  | hpr | snp | sup | ein | din | wti | cls | rss | sil | hnp | ssp | evm | dvm | cli | clh | rsh | hil | atTrp | atHvr
  | atCiv => cases h
  | _ => exact nofun

/-- An instruction that writes a destination without a write form is refused. -/
theorem exec_plusWrite {i : Instr} {f : Form} {n : Nat} (hf : f = .spSp ∨ f = .rpRp)
    (h : written i = some (.form f, n)) (s : State) : exec i s = .refused .plusWriteForm := by
  have hform : checkWriteForm (.form f) = refuse .plusWriteForm := by rcases hf with rfl | rfl <;> rfl
  rw [exec_eq_run, Template.run_plusWrite hform (written_eq i ▸ h) (not_privileged_of_written h), finish_refuse]

/-- Settles O25: each of the instructions writes the form, which it refuses before R95 or R183 could refuse the operands
(30_encoding.md R92). -/
theorem plusWriteRefused : Obligations.PlusWriteRefused := by
  intro f z p src q op x s hf i hi
  fin_cases hi <;> exact exec_plusWrite hf rfl s

end Sys2Proof.Machine
end

section
/-! SUPPORT. The NOP set (O51, O52): its members have the template that does nothing, or the one that refuses. -/

namespace Sys2Proof.Machine

theorem exec_of_nop {i : Instr} (h : templateOf i = .nop) (s : State) : exec i s = .next s := by
  rw [exec_eq_run, h]
  rfl

theorem exec_of_refusal {i : Instr} {r : Refusal} (h : templateOf i = .stop (.refused r)) (s : State) :
    exec i s = .refused r := by
  rw [exec_eq_run, h]
  rfl

/-- Settles O51: every NOP form has the template that does nothing. -/
theorem nopResult : Obligations.NopResult := by
  intro z o q fn x s i hi
  fin_cases hi <;> exact exec_of_nop rfl s

/-- Settles O52: every form that would have a side effect has the template of its refusal. -/
theorem nopRefused : Obligations.NopRefused := by
  intro z f s i hi
  fin_cases hi <;> exact exec_of_refusal rfl s

end Sys2Proof.Machine
end

section
/-! SUPPORT. The results of MOV, the arithmetic and the logic instructions (O26, O27, O28, O31): a two-operand instruction
with accessible operands completes, and what it writes is a number taken modulo 2^opw (40_integer_ops.md R120, R129). -/

namespace Sys2Proof.Machine

/-! ## Completion -/

/-- A destination that can be written has a write form. -/
theorem checkWriteForm_of_writeReady {s : State} {dst : Operand} {n : Nat} (h : writeReady s dst n) :
    checkWriteForm dst = .ok () := by
  cases dst with
  | an | mem | dn | special => rfl
  | form f =>
    cases f with
    | pcSp | ipRp => rfl
    | spSp | rpRp => cases h

theorem moveOp_of_ready {n : Nat} (hn : 0 < stepOf n) (opw : Nat) {dst src : Operand} {s : State}
    (h : moveReady s dst src n) :
    moveOp n opw dst src s = .ok (writeState (srcState s src n) dst n opw (widen opw n (srcValue s src n))) := by
  obtain ⟨hpointers, hsrc, hwrite⟩ := h
  rw [moveOp, checkWriteForm_of_writeReady hwrite, ok_bind, (checkPointers_eq_ok _ _ _).2 hpointers, ok_bind,
    (readSrc_eq_ok s _ src n hn _).2 ⟨hsrc, rfl, rfl⟩, ok_bind]
  exact (writeDst_eq_ok _ _ _ _ _ hn _).2 ⟨hwrite, rfl⟩

theorem modifyOp_of_ready (f : Quad → Quad → Quad) {n : Nat} (hn : 0 < stepOf n) (opw : Nat) {dst src : Operand}
    {s : State} (h : modifyReady s dst src n) : modifyOp f n opw dst src s = .ok (modifyState f s dst src n opw) := by
  obtain ⟨hpointers, hsrc, hdst, hwrite⟩ := h
  rw [modifyOp, checkWriteForm_of_writeReady hwrite, ok_bind, (checkPointers_eq_ok _ _ _).2 hpointers, ok_bind,
    (readSrc_eq_ok s _ src n hn _).2 ⟨hsrc, rfl, rfl⟩, ok_bind]
  dsimp only
  rw [(readDst_eq_ok _ _ dst n opw hn _).2 ⟨hdst, rfl, rfl⟩, ok_bind]
  exact (writeDst_eq_ok _ _ _ _ _ hn _).2 ⟨hwrite, rfl⟩

/-- An instruction that reads and writes its destination completes on every accessible operand pair. -/
theorem exec_modify_of_ready {i : Instr} {f : Quad → Quad → Quad} {w : Width} {dst src : Operand}
    (hi : templateOf i = .modify f w dst src) {s : State} (h : modifyReady s dst src w.bits) :
    exec i s = .next (modifyState f s dst src w.bits (w.opw dst)) := by
  rw [exec_eq_next, hi]
  exact modifyOp_of_ready f w.stepOf_bits_pos _ h

/-! ## Numbers modulo 2^opw -/

theorem opWidth_sizeBits_le (dst : Operand) (z : Size) : opWidth dst (sizeBits z) ≤ 64 := by
  have hsize : sizeBits z ≤ 64 := by cases z <;> decide
  cases dst with
  | an | special => exact le_rfl
  | mem | dn | form => exact hsize

/-- `signed` is the two's-complement reading of the low bits (00_scope.md R7). -/
theorem signedOf_eq_toInt (n : Nat) (v : Quad) : signedOf n v = (v.setWidth n).toInt := by
  have hhalf : v.toNat % 2 ^ n < 2 ^ (n - 1) ↔ 2 * (v.toNat % 2 ^ n) < 2 ^ n := by
    cases n with
    | zero => simp [Nat.mod_one]
    | succ n => rw [Nat.add_sub_cancel, Nat.pow_succ]; omega
  rw [signedOf, BitVec.toInt_eq_toNat_cond, BitVec.toNat_setWidth]
  simp only [hhalf, Nat.cast_pow, Nat.cast_ofNat]

/-- Only the low `n` bits count for `signed`. -/
@[simp] theorem signedOf_low (n : Nat) (v : Quad) : signedOf n (low n v) = signedOf n v := by
  rw [signedOf, signedOf, toNat_low, Nat.mod_mod]

/-- The low bits of a number are the number modulo a power of two. -/
theorem low_ofInt {opw : Nat} (h : opw ≤ 64) (x : Int) : low opw (BitVec.ofInt 64 x) = wrapTo opw x := by
  have hpos : (0 : Int) < (2 ^ opw : Nat) := by positivity
  have hnonneg : 0 ≤ x % (2 ^ opw : Nat) := Int.emod_nonneg x hpos.ne'
  have hlt : x % (2 ^ opw : Nat) < (2 ^ 64 : Nat) :=
    (Int.emod_lt_of_pos x hpos).trans_le (Int.ofNat_le.2 (Nat.pow_le_pow_right (by omega) h))
  have hdvd : ((2 ^ opw : Nat) : Int) ∣ (2 ^ 64 : Nat) := Int.natCast_dvd_natCast.2 (Nat.pow_dvd_pow 2 h)
  have hwrap : wrapTo opw x = BitVec.ofInt 64 (x % (2 ^ opw : Nat)) := by rw [wrapTo, Nat.cast_pow, Nat.cast_ofNat]
  apply BitVec.eq_of_toNat_eq
  rw [← Int.natCast_inj, toNat_low, hwrap, BitVec.toNat_ofInt, BitVec.toNat_ofInt, Int.natCast_mod,
    Int.toNat_of_nonneg (Int.emod_nonneg x (by decide)), Int.emod_emod_of_dvd x hdvd, Int.emod_eq_of_lt hnonneg hlt,
    Int.toNat_of_nonneg hnonneg]

/-- A sign-extended source, taken to the operation width, is its signed number modulo 2^opw (30_encoding.md R93). -/
theorem widen_eq_wrapTo {opw : Nat} (h : opw ≤ 64) (n : Nat) (v : Quad) :
    widen opw n v = wrapTo opw (signedOf n v) := by
  rw [signedOf_eq_toInt, ← low_ofInt h]
  rfl

theorem ofInt_toNat (v : Quad) : BitVec.ofInt 64 (v.toNat : Int) = v := by
  rw [BitVec.ofInt_natCast, BitVec.ofNat_toNat, BitVec.setWidth_eq]

theorem wrapTo_all (x : Int) : wrapTo 64 x = BitVec.ofInt 64 x := by
  rw [← low_ofInt le_rfl, low, BitVec.setWidth_eq, BitVec.setWidth_eq]

theorem add_ofInt (a : Quad) (x : Int) : a + BitVec.ofInt 64 x = BitVec.ofInt 64 (a.toNat + x) := by
  rw [BitVec.ofInt_add, ofInt_toNat]

theorem sub_ofInt (a : Quad) (x : Int) : a - BitVec.ofInt 64 x = BitVec.ofInt 64 (a.toNat - x) := by
  rw [sub_eq_add_neg a, ← BitVec.ofInt_neg, add_ofInt, sub_eq_add_neg]

theorem mul_ofInt (a : Quad) (x : Int) : a * BitVec.ofInt 64 x = BitVec.ofInt 64 (a.toNat * x) := by
  rw [BitVec.ofInt_mul, ofInt_toNat]

theorem low_add_wrapTo {opw : Nat} (h : opw ≤ 64) (a : Quad) (x : Int) :
    low opw (a + wrapTo opw x) = wrapTo opw (a.toNat + x) := by
  rw [wrapTo, add_ofInt, low_ofInt h, wrapTo, wrapTo, Int.add_emod_emod]

theorem low_sub_wrapTo {opw : Nat} (h : opw ≤ 64) (a : Quad) (x : Int) :
    low opw (a - wrapTo opw x) = wrapTo opw (a.toNat - x) := by
  rw [wrapTo, sub_ofInt, low_ofInt h, wrapTo, wrapTo, Int.sub_emod_emod]

theorem low_mul_wrapTo {opw : Nat} (h : opw ≤ 64) (a : Quad) (x : Int) :
    low opw (a * wrapTo opw x) = wrapTo opw (a.toNat * x) := by
  rw [wrapTo, mul_ofInt, low_ofInt h, wrapTo, wrapTo]
  exact congrArg (BitVec.ofInt 64) ((Int.mod_modEq x (2 ^ opw)).mul_left a.toNat)

/-! ## Values of a width -/

theorem low_eq_self {n : Nat} {v : Quad} (h : v.toNat < 2 ^ n) : low n v = v :=
  BitVec.eq_of_toNat_eq (by rw [toNat_low, Nat.mod_eq_of_lt h])

theorem toNat_low_lt (n : Nat) (v : Quad) : (low n v).toNat < 2 ^ n := by
  rw [toNat_low]
  exact Nat.mod_lt _ (Nat.two_pow_pos n)

theorem toNat_wrapTo_lt {opw : Nat} (h : opw ≤ 64) (x : Int) : (wrapTo opw x).toNat < 2 ^ opw := by
  rw [← low_ofInt h]
  exact toNat_low_lt _ _

/-- The value of `k` words has 16k bits (20_memory.md R52). -/
theorem State.toNat_valueAt_lt (s : State) (x : Quad) (k : Nat) : (s.valueAt x k).toNat < 2 ^ (16 * k) := by
  induction k with
  | zero => simp [State.valueAt]
  | succ k ih =>
    have hupper : (s.valueAt x k <<< 16).toNat < 2 ^ (16 * (k + 1)) := by
      rw [BitVec.toNat_shiftLeft, Nat.shiftLeft_eq, Nat.mul_succ 16, Nat.pow_add]
      exact (Nat.mod_le _ _).trans_lt (Nat.mul_lt_mul_of_pos_right ih (Nat.two_pow_pos 16))
    have hword : ((s.wordOrZero (x + BitVec.ofNat 64 k)).setWidth 64).toNat < 2 ^ (16 * (k + 1)) := by
      rw [BitVec.toNat_setWidth_of_le (by omega)]
      exact lt_of_lt_of_le (BitVec.isLt _) (Nat.pow_le_pow_right (by omega) (by omega))
    rw [State.valueAt, BitVec.toNat_or]
    exact Nat.or_lt_two_pow hupper hword

/-- The destination value has `opw` bits (30_encoding.md R93, R94). -/
theorem toNat_dstValue_lt (s : State) (dst : Operand) (z : Size) :
    (dstValue s dst (sizeBits z) (opWidth dst (sizeBits z))).toNat < 2 ^ opWidth dst (sizeBits z) := by
  have hwords (x : Quad) : (s.valueAt x (stepOf (sizeBits z))).toNat < 2 ^ sizeBits z := by
    simpa only [sixteen_mul_stepOf] using s.toNat_valueAt_lt x (stepOf (sizeBits z))
  cases dst with
  | an r | dn r | special x => exact toNat_low_lt _ _
  | mem r | form f => exact hwords _

/-! ## The statements -/

/-- Settles O26: MOV completes, and what it writes is its signed source modulo 2^opw. -/
theorem movResult : Obligations.MovResult := by
  intro z dst src s h
  rw [exec_eq_next, ← widen_eq_wrapTo (opWidth_sizeBits_le dst z)]
  exact moveOp_of_ready (stepOf_sizeBits_pos z) _ h

/-- What an integer instruction that reads its destination writes, from the value `v` that its operation gives on the
operands, the source as a number modulo 2^opw. -/
theorem exec_integer_of_ready {i : Instr} {f : Quad → Quad → Quad} {z : Size} {dst src : Operand}
    (hi : templateOf i = .modify f (.int z) dst src) {s : State} (h : modifyReady s dst src (sizeBits z)) {v : Quad}
    (hv : low (opWidth dst (sizeBits z))
      (f (dstValue (srcState s src (sizeBits z)) dst (sizeBits z) (opWidth dst (sizeBits z)))
        (wrapTo (opWidth dst (sizeBits z)) (signedOf (sizeBits z) (srcValue s src (sizeBits z))))) = v) :
    exec i s = .next
      (writeState (modifyAt s dst src (sizeBits z)) dst (sizeBits z) (opWidth dst (sizeBits z)) v) := by
  rw [exec_modify_of_ready hi h, ← hv, ← widen_eq_wrapTo (opWidth_sizeBits_le dst z)]
  rfl

/-- Settles O27: sum, difference and product modulo 2^64 agree with those of numbers modulo 2^opw. -/
theorem arithmeticResult : Obligations.ArithmeticResult := by
  intro z dst src s h
  have hopw := opWidth_sizeBits_le dst z
  exact ⟨exec_integer_of_ready rfl h (low_add_wrapTo hopw _ _),
    exec_integer_of_ready rfl h (low_sub_wrapTo hopw _ _),
    exec_integer_of_ready rfl h (low_mul_wrapTo hopw _ _)⟩

/-- A bitwise result of two values of `n` bits has `n` bits. -/
theorem low_of_bitwise {n : Nat} {v : Quad} {m : Nat} (hv : v.toNat = m) (hm : m < 2 ^ n) :
    low n v = BitVec.ofNat 64 m := by
  subst hv
  rw [low_eq_self hm, BitVec.ofNat_toNat, BitVec.setWidth_eq]

/-- Settles O28: both operands have `opw` bits, so the bitwise results do too. -/
theorem logicResult : Obligations.LogicResult := by
  intro z dst src s h
  have ha := toNat_dstValue_lt (srcState s src (sizeBits z)) dst z
  have hb := toNat_wrapTo_lt (opWidth_sizeBits_le dst z) (signedOf (sizeBits z) (srcValue s src (sizeBits z)))
  exact ⟨exec_integer_of_ready rfl h (low_of_bitwise (BitVec.toNat_and _ _) (Nat.and_lt_two_pow _ hb)),
    exec_integer_of_ready rfl h (low_of_bitwise (BitVec.toNat_or _ _) (Nat.or_lt_two_pow ha hb)),
    exec_integer_of_ready rfl h (low_of_bitwise (BitVec.toNat_xor _ _) (Nat.xor_lt_two_pow ha hb))⟩

/-- A write of a number to PC direct is a jump there (40_integer_ops.md R128). -/
theorem writeState_pc_wrapTo (s : State) (n : Nat) (x : Int) :
    writeState s (.special .pc) n 64 (wrapTo 64 x) = s.setPc (BitVec.ofInt 64 x) := by
  rw [writeState, insertLow_all, wrapTo_all]
  rfl

/-- Settles O31: the results of O26 and O27 at destination PC direct, which is 64 bits wide. -/
theorem jumpByWrite : Obligations.JumpByWrite := by
  intro z r s
  have hmove : moveReady s (.special .pc) (.dn r) (sizeBits z) := ⟨rfl, trivial, rfl⟩
  have hmodify : modifyReady s (.special .pc) (.dn r) (sizeBits z) := ⟨rfl, trivial, trivial, rfl⟩
  have hpc : dstValue s (.special .pc) (sizeBits z) 64 = s.pc := low_eq_self s.pc.isLt
  obtain ⟨hadd, hsub, _⟩ := arithmeticResult z (.special .pc) (.dn r) s hmodify
  refine ⟨(movResult z (.special .pc) (.dn r) s hmove).trans ?_, hadd.trans ?_, hsub.trans ?_⟩
  · simp only [srcState, srcValue, opWidth, signedOf_low, writeState_pc_wrapTo]
  · simp only [modifyAt, dstState, srcState, srcValue, opWidth, signedOf_low, hpc, writeState_pc_wrapTo, add_ofInt]
  · simp only [modifyAt, dstState, srcState, srcValue, opWidth, signedOf_low, hpc, writeState_pc_wrapTo, sub_ofInt]

end Sys2Proof.Machine
end

section
/-! SUPPORT. What an instruction leaves as it was (O29, O30): its operand reads move pointers only, and its write changes
its destination, the pointer of its push, and the words it stores. -/

namespace Sys2Proof.Machine

/-! ## Chains of states -/

theorem SameControl.trans {s u t : State} (h : SameControl s u) (h' : SameControl u t) : SameControl s t where
  mode := h'.mode.trans h.mode
  interruptEnable := h'.interruptEnable.trans h.interruptEnable
  interruptPending := h'.interruptPending.trans h.interruptPending
  vmEnable := h'.vmEnable.trans h.vmEnable
  userPt := h'.userPt.trans h.userPt
  superPt := h'.superPt.trans h.superPt

theorem SameSystem.trans {s u t : State} (h : SameSystem s u) (h' : SameSystem u t) : SameSystem s t where
  brkVector := h'.brkVector.trans h.brkVector
  trpVector := h'.trpVector.trans h.trpVector
  hvrVector := h'.hvrVector.trans h.hvrVector
  civVector := h'.civVector.trans h.civVector
  comTable := h'.comTable.trans h.comTable
  profile := h'.profile.trans h.profile
  special := h'.special.trans h.special
  wtoTarget := h'.wtoTarget.trans h.wtoTarget
  comPosition := h'.comPosition.trans h.comPosition
  platform := h'.platform.trans h.platform

theorem OnlyPointers.refl (s : State) (moved : Special → Bool) : OnlyPointers s s moved where
  general := ⟨fun _ _ => rfl, fun _ _ => rfl⟩
  pointers _ _ _ := rfl
  memory := rfl
  stored := rfl
  control := ⟨rfl, rfl, rfl, rfl, rfl, rfl⟩
  system := ⟨rfl, rfl, rfl, rfl, rfl, rfl, rfl, rfl, rfl, rfl⟩

theorem OnlyPointers.trans {s u t : State} {moved : Special → Bool} (h : OnlyPointers s u moved)
    (h' : OnlyPointers u t moved) : OnlyPointers s t moved where
  general := ⟨fun r hr => (h'.general.1 r hr).trans (h.general.1 r hr),
    fun r hr => (h'.general.2 r hr).trans (h.general.2 r hr)⟩
  pointers x hpc hx := (h'.pointers x hpc hx).trans (h.pointers x hpc hx)
  memory := h'.memory.trans h.memory
  stored := h'.stored.trans h.stored
  control := h.control.trans h'.control
  system := h.system.trans h'.system

/-! ## Operand reads -/

theorem sameControl_setSpecial (s : State) (x : Special) (v : Quad) : SameControl s (s.setSpecial x v) := by
  cases x <;> exact ⟨rfl, rfl, rfl, rfl, rfl, rfl⟩

theorem onlyPointers_setSpecial (s : State) {x : Special} (v : Quad) {moved : Special → Bool} (hx : moved x = true) :
    OnlyPointers s (s.setSpecial x v) moved where
  general := ⟨fun _ _ => State.getA_setSpecial _ _ _ _, fun _ _ => State.getD_setSpecial _ _ _ _⟩
  pointers y _ hy := by
    have hne : y ≠ x := fun h => by simp [h, hx] at hy
    rw [State.getSpecial_setSpecial, if_neg hne]
  memory := State.setSpecial_memory _ _ _
  stored := State.setSpecial_stored _ _ _
  control := sameControl_setSpecial s x v
  system := (sameSystem_of_systemPart_eq (State.systemPart_setSpecial s x v)).1

/-- A source read moves the pointer of the source. -/
theorem onlyPointers_srcState (s : State) {src : Operand} (n : Nat) {moved : Special → Bool}
    (h : ∀ x, srcPointer src = some x → moved x = true) : OnlyPointers s (srcState s src n) moved := by
  cases src with
  | form f => exact onlyPointers_setSpecial s _ (h _ rfl)
  | an | mem | dn | special => exact .refl s moved

/-- A destination read moves the pointer of the destination's read half. -/
theorem onlyPointers_dstState (s : State) {dst : Operand} (n : Nat) {moved : Special → Bool}
    (h : ∀ x, dstUpdates .modify dst x = true → moved x = true) : OnlyPointers s (dstState s dst n) moved := by
  cases dst with
  | form f => exact onlyPointers_setSpecial s _ (h _ (by simp [dstUpdates]))
  | an | mem | dn | special => exact .refl s moved

/-! ## Destination writes -/

theorem sameGeneralBut_writeState (s : State) (dst : Operand) (n opw : Nat) (v : Quad) :
    SameGeneralBut s (writeState s dst n opw v) (some dst) := by
  cases dst with
  | an q =>
    refine ⟨fun r hr => ?_, fun _ _ => rfl⟩
    have hne : r ≠ q := fun h => hr (by rw [h])
    rw [writeState, State.getA_setA, if_neg hne]
  | dn q =>
    refine ⟨fun _ _ => rfl, fun r hr => ?_⟩
    have hne : r ≠ q := fun h => hr (by rw [h])
    rw [writeState, State.getD_setD, if_neg hne]
  | mem q => exact ⟨fun _ _ => State.getA_storeWords _ _ _ _ _, fun _ _ => State.getD_storeWords _ _ _ _ _⟩
  | special x => exact ⟨fun _ _ => State.getA_setSpecial _ _ _ _, fun _ _ => State.getD_setSpecial _ _ _ _⟩
  | form f => cases f <;> constructor <;> intros <;> simp [writeState, writePointer]

/-- A write moves a special register that is its destination, and the pointer of its push. -/
theorem getSpecial_writeState (s : State) {dst : Operand} (n opw : Nat) (v : Quad) {x : Special}
    (hdst : dst ≠ .special x) (hpush : dstUpdates .write dst x = false) :
    (writeState s dst n opw v).getSpecial x = s.getSpecial x := by
  cases dst with
  | an r => exact State.getSpecial_setA _ _ _ _
  | dn r => exact State.getSpecial_setD _ _ _ _
  | mem r => exact State.getSpecial_storeWords _ _ _ _ _
  | special y =>
    have hne : x ≠ y := fun h => hdst (by rw [h])
    rw [writeState, State.getSpecial_setSpecial, if_neg hne]
  | form f =>
    rw [writeState]
    split
    · next p hp =>
      have hne : x ≠ p := fun h => by simp [dstUpdates, hp, h] at hpush
      rw [State.getSpecial_storeWords, State.getSpecial_setSpecial, if_neg hne]
    · rfl

/-- A word outside the words of a store counts as stored to if it did before. -/
theorem State.isStored_storeWords_of_ne (s : State) {x y : Quad} {k : Nat} (v : Quad)
    (h : ∀ j, j < k → y ≠ x + BitVec.ofNat 64 j) : (s.storeWords x k v).isStored y = s.isStored y := by
  induction k generalizing v with
  | zero => rfl
  | succ k ih =>
    rw [State.storeWords, State.isStored_storeWord, decide_eq_false (h k (by omega)), Bool.false_or,
      ih _ fun j hj => h j (by omega)]

theorem sameMemoryBut_storeWords (s : State) (x : Quad) (k : Nat) (v : Quad) :
    SameMemoryBut s (s.storeWords x k v) (some x) k := fun b hb =>
  State.byteAt_storeWords s x k v b fun j hj =>
    ⟨fun h => hb x rfl ⟨j, hj, .inl h⟩, fun h => hb x rfl ⟨j, hj, .inr h⟩⟩

theorem sameStoredBut_storeWords (s : State) (x : Quad) (k : Nat) (v : Quad) :
    SameStoredBut s (s.storeWords x k v) (some x) k := fun _ hy => State.isStored_storeWords_of_ne s v (hy x rfl)

/-- A write changes bytes at its store address only. -/
theorem sameMemoryBut_writeState (s : State) (dst : Operand) (n opw : Nat) (v : Quad) :
    SameMemoryBut s (writeState s dst n opw v) (storeAddress s dst n) (stepOf n) := by
  cases dst with
  | an r | dn r => exact fun _ _ => rfl
  | special x => exact fun b _ => congrArg (Memory.byteAt · b) (State.setSpecial_memory s x _)
  | mem r => exact sameMemoryBut_storeWords _ _ _ _
  | form f =>
    cases f with
    | pcSp | ipRp => exact sameMemoryBut_storeWords (s.setSpecial _ (pushAddress s _ n)) _ _ _
    | spSp | rpRp => exact fun _ _ => rfl

/-- A write makes words count as stored to at its store address only. -/
theorem sameStoredBut_writeState (s : State) (dst : Operand) (n opw : Nat) (v : Quad) :
    SameStoredBut s (writeState s dst n opw v) (storeAddress s dst n) (stepOf n) := by
  cases dst with
  | an r | dn r => exact fun _ _ => rfl
  | special x => exact fun y _ => State.isStored_setSpecial s x _ y
  | mem r => exact sameStoredBut_storeWords _ _ _ _
  | form f =>
    cases f with
    | pcSp | ipRp => exact sameStoredBut_storeWords (s.setSpecial _ (pushAddress s _ n)) _ _ _
    | spSp | rpRp => exact fun _ _ => rfl

theorem sameControl_storeWords (s : State) (x : Quad) (k : Nat) (v : Quad) : SameControl s (s.storeWords x k v) := by
  rw [State.storeWords_eq]
  exact ⟨rfl, rfl, rfl, rfl, rfl, rfl⟩

theorem sameControl_writeState (s : State) (dst : Operand) (n opw : Nat) (v : Quad) :
    SameControl s (writeState s dst n opw v) := by
  cases dst with
  | an r | dn r => exact ⟨rfl, rfl, rfl, rfl, rfl, rfl⟩
  | mem r => exact sameControl_storeWords _ _ _ _
  | special x => exact sameControl_setSpecial _ _ _
  | form f =>
    cases f with
    | pcSp | ipRp => exact (sameControl_setSpecial _ _ _).trans (sameControl_storeWords _ _ _ _)
    | spSp | rpRp => exact ⟨rfl, rfl, rfl, rfl, rfl, rfl⟩

/-- The frame of an instruction that writes its destination in a state that its operand reads have led to. -/
theorem OnlyPointers.frameOf_writeState {s w : State} {moved : Special → Bool} (h : OnlyPointers s w moved)
    {dst : Operand} (n opw : Nat) (v : Quad) (hpush : ∀ x, dstUpdates .write dst x = true → moved x = true) :
    FrameOf s w (writeState w dst n opw v) dst n moved where
  general := by
    obtain ⟨ha, hd⟩ := sameGeneralBut_writeState w dst n opw v
    exact ⟨fun r hr => (ha r hr).trans (h.general.1 r nofun), fun r hr => (hd r hr).trans (h.general.2 r nofun)⟩
  pointers x hpc hdst hx := by
    have hstays : dstUpdates .write dst x = false :=
      Bool.eq_false_iff.2 fun hp => Bool.eq_false_iff.1 hx (hpush x hp)
    exact (getSpecial_writeState w n opw v hdst hstays).trans (h.pointers x hpc hx)
  memory b hb := (sameMemoryBut_writeState w dst n opw v b hb).trans (by rw [h.memory])
  stored y hy := (sameStoredBut_writeState w dst n opw v y hy).trans (by rw [State.isStored, h.stored, State.isStored])
  control := h.control.trans (sameControl_writeState w dst n opw v)
  system := h.system.trans (sameSystem_of_systemPart_eq (systemPart_writeState w dst n opw v)).1

/-! ## Two-operand instructions -/

theorem movedBy_of_srcPointer {use : DstUse} {dst src : Operand} {x : Special} (h : srcPointer src = some x) :
    movedBy use dst src x = true := by simp [movedBy, h]

theorem movedBy_of_dstUpdates {use : DstUse} {dst src : Operand} {x : Special} (h : dstUpdates use dst x = true) :
    movedBy use dst src x = true := by simp [movedBy, h]

/-- A destination that is read as well moves at least the pointer of its push. -/
theorem dstUpdates_modify_of_write {dst : Operand} {x : Special} (h : dstUpdates .write dst x = true) :
    dstUpdates .modify dst x = true := by
  cases dst with
  | form f =>
    have hpush : writePointer f = some x := by simpa [dstUpdates] using h
    simp [dstUpdates, hpush]
  | an | mem | dn | special => cases h

/-- The frame of an instruction that reads its source, then its destination, and then writes it. -/
theorem frameOf_modify {i : Instr} {f : Quad → Quad → Quad} {w : Width} {dst src : Operand} {s t : State}
    (hi : templateOf i = .modify f w dst src) (h : exec i s = .next t) :
    FrameOf s (modifyAt s dst src w.bits) t dst w.bits (movedBy .modify dst src) := by
  obtain ⟨_, rfl⟩ := exec_next h
  rw [hi]
  have hsrc := onlyPointers_srcState s w.bits fun _ => movedBy_of_srcPointer (use := .modify) (dst := dst) (src := src)
  have hdst := onlyPointers_dstState (srcState s src w.bits) w.bits fun _ =>
    movedBy_of_dstUpdates (use := .modify) (dst := dst) (src := src)
  exact (hsrc.trans hdst).frameOf_writeState _ _ _ fun _ hx =>
    movedBy_of_dstUpdates (dstUpdates_modify_of_write hx)

/-- Settles O29: MOV reads its source and writes its destination. -/
theorem movFrame : Obligations.MovFrame := by
  intro z dst src s t h
  obtain ⟨_, rfl⟩ := exec_next h
  have hsrc := onlyPointers_srcState s (sizeBits z) fun _ =>
    movedBy_of_srcPointer (use := .write) (dst := dst) (src := src)
  exact hsrc.frameOf_writeState _ _ _ fun _ => movedBy_of_dstUpdates

/-- Settles O30: the six operations are of the template that reads both operands and writes the destination. -/
theorem integerFrame : Obligations.IntegerFrame := by
  intro z dst src s t i hi h
  fin_cases hi <;> exact frameOf_modify (w := .int z) rfl h

end Sys2Proof.Machine
end

section
/-! SUPPORT. Words that the rules write out (O3). -/

namespace Sys2Proof

/-- The word that a well-formed instruction encodes to decodes to it. -/
theorem decodeWord_of_encode_eq {w : Word} {i : Instr} (hi : i.wf = true) (h : encode i = w) : decodeWord w = i := by
  rw [← h, decodeWord_encode i hi]

/-- Settles O3: each word is the encoding of the instruction its rule names. -/
theorem sampleWordsDecode : Obligations.SampleWordsDecode := by
  refine ⟨?_, ?_, ?_, ?_, ?_, ?_, ?_, ?_, ?_, ?_, ?_, ?_, ?_, ?_, ?_, ?_⟩ <;>
    exact decodeWord_of_encode_eq rfl rfl

end Sys2Proof
end

section
/-! SUPPORT. The quick operations (O33, O34): they complete on every accessible destination, with the quick constant as a
number 1 to 32 (30_encoding.md R96), and change what a write of their destination changes (41_quick_ops.md R140). -/

namespace Sys2Proof.Machine

/-! ## The quick constant as a number -/

theorem toNat_quickConstant (q : Quick) : (quickConstant q).toNat = quickNumber q := by
  by_cases h : q = 0#5
  · subst h
    rfl
  · have hne : q.toNat ≠ 0 := fun h0 => h (BitVec.eq_of_toNat_eq h0)
    rw [quickConstant, if_neg h, quickNumber, if_neg hne, BitVec.toNat_setWidth_of_le (by decide)]

theorem quickConstant_eq_ofNat (q : Quick) : quickConstant q = BitVec.ofNat 64 (quickNumber q) := by
  rw [← toNat_quickConstant, BitVec.ofNat_toNat, BitVec.setWidth_eq]

theorem quickConstant_eq_ofInt (q : Quick) : quickConstant q = BitVec.ofInt 64 (quickNumber q) := by
  rw [quickConstant_eq_ofNat, BitVec.ofInt_natCast]

theorem quickNumber_le (q : Quick) : quickNumber q ≤ 32 := by
  have hlt : q.toNat < 32 := q.isLt
  unfold quickNumber
  split <;> omega

/-- No operation is narrower than a word (30_encoding.md R85, R93). -/
theorem sixteen_le_opWidth (dst : Operand) (z : Size) : 16 ≤ opWidth dst (sizeBits z) := by
  have hsize : 16 ≤ sizeBits z := by cases z <;> decide
  cases dst with
  | an | special => exact (by decide : 16 ≤ 64)
  | mem | dn | form => exact hsize

/-- The quick constant fits every operation width, so MVQ writes it as it is. -/
theorem low_quickConstant (dst : Operand) (z : Size) (q : Quick) :
    low (opWidth dst (sizeBits z)) (quickConstant q) = quickConstant q := by
  apply low_eq_self
  calc (quickConstant q).toNat = quickNumber q := toNat_quickConstant q
    _ ≤ 32 := quickNumber_le q
    _ < 2 ^ 16 := by decide
    _ ≤ 2 ^ opWidth dst (sizeBits z) := Nat.pow_le_pow_right (by decide) (sixteen_le_opWidth dst z)

/-! ## Completion -/

theorem setOp_of_ready (v : Quad) {n : Nat} (hn : 0 < stepOf n) (opw : Nat) {dst : Operand} {s : State}
    (h : writeReady s dst n) : setOp v n opw dst s = .ok (writeState s dst n opw (low opw v)) := by
  rw [setOp, checkWriteForm_of_writeReady h, ok_bind]
  exact (writeDst_eq_ok _ _ _ _ _ hn _).2 ⟨h, rfl⟩

theorem quickOp_of_ready (f : Quad → Quad → Quad) {n : Nat} (hn : 0 < stepOf n) (opw : Nat) {dst : Operand} (q : Quick)
    {s : State} (h : updateReady s dst n) :
    quickOp f n opw dst q s =
      .ok (writeState (dstState s dst n) dst n opw (low opw (f (dstValue s dst n opw) (quickConstant q)))) := by
  obtain ⟨hread, hwrite⟩ := h
  rw [quickOp, checkWriteForm_of_writeReady hwrite, ok_bind, (readDst_eq_ok s _ dst n opw hn _).2 ⟨hread, rfl, rfl⟩,
    ok_bind]
  exact (writeDst_eq_ok _ _ _ _ _ hn _).2 ⟨hwrite, rfl⟩

/-- An instruction that only writes its destination completes where that can be written. -/
theorem exec_set_of_ready {i : Instr} {v : Quad} {w : Width} {dst : Operand} (hi : templateOf i = .set v w dst)
    {s : State} (h : writeReady s dst w.bits) :
    exec i s = .next (writeState s dst w.bits (w.opw dst) (low (w.opw dst) v)) := by
  rw [exec_eq_next, hi]
  exact setOp_of_ready v w.stepOf_bits_pos _ h

/-- A quick operation whose function on quads is `g` on numbers completes, and what it writes is `g` of its destination
and the quick number, modulo 2^opw. -/
theorem exec_quick_of_ready {i : Instr} {f : Quad → Quad → Quad} {z : Size} {dst : Operand} {q : Quick}
    (hi : templateOf i = .quick f z dst q) (g : Int → Int → Int)
    (hfg : ∀ (a : Quad) (x : Int), f a (BitVec.ofInt 64 x) = BitVec.ofInt 64 (g a.toNat x)) {s : State}
    (h : updateReady s dst (sizeBits z)) :
    exec i s = .next
      (writeState (dstState s dst (sizeBits z)) dst (sizeBits z) (opWidth dst (sizeBits z))
        (wrapTo (opWidth dst (sizeBits z))
          (g (dstValue s dst (sizeBits z) (opWidth dst (sizeBits z))).toNat (quickNumber q)))) := by
  rw [exec_eq_next, hi, ← low_ofInt (opWidth_sizeBits_le dst z), ← hfg, ← quickConstant_eq_ofInt]
  exact quickOp_of_ready f (stepOf_sizeBits_pos z) _ q h

/-- Settles O33: the quick constant is the quick number, and sum, product and difference on quads agree with those of
numbers. -/
theorem quickResult : Obligations.QuickResult := by
  intro z dst q s
  refine ⟨fun h => ?_, fun h => ⟨?_, ?_, ?_⟩⟩
  · rw [← quickConstant_eq_ofNat, ← low_quickConstant dst z q]
    exact exec_set_of_ready (w := .int z) rfl h
  · exact exec_quick_of_ready rfl (· + ·) add_ofInt h
  · exact exec_quick_of_ready rfl (· * ·) mul_ofInt h
  · exact exec_quick_of_ready rfl (· - ·) sub_ofInt h

/-! ## Frame -/

/-- The frame of an instruction that only writes its destination. -/
theorem frameOf_set {i : Instr} {v : Quad} {w : Width} {dst : Operand} {s t : State} (hi : templateOf i = .set v w dst)
    (h : exec i s = .next t) : FrameOf s s t dst w.bits (dstUpdates .write dst) := by
  obtain ⟨_, rfl⟩ := exec_next h
  rw [hi]
  exact (OnlyPointers.refl s _).frameOf_writeState _ _ _ fun _ => id

/-- The frame of a quick operation that reads its destination and then writes it. -/
theorem frameOf_quick {i : Instr} {f : Quad → Quad → Quad} {z : Size} {dst : Operand} {q : Quick} {s t : State}
    (hi : templateOf i = .quick f z dst q) (h : exec i s = .next t) :
    FrameOf s (dstState s dst (sizeBits z)) t dst (sizeBits z) (dstUpdates .modify dst) := by
  obtain ⟨_, rfl⟩ := exec_next h
  rw [hi]
  exact (onlyPointers_dstState s _ fun _ => id).frameOf_writeState _ _ _ fun _ => dstUpdates_modify_of_write

/-- Settles O34: MVQ only writes its destination; ADQ, MLQ and SBQ are of the template that reads it first. -/
theorem quickFrame : Obligations.QuickFrame := by
  intro z dst q s t
  refine ⟨frameOf_set (w := .int z) rfl, fun i hi h => ?_⟩
  fin_cases hi <;> exact frameOf_quick rfl h

end Sys2Proof.Machine
end

section
/-! SUPPORT. The branches (O35, O37, O38): they complete on every accessible tested operand but an immediate, which they
refuse, jump by a number of words on a condition about a number of opw bits (42_quick_branches.md R150 to R155), and
change PC and the pointer of a popped operand only. -/

namespace Sys2Proof.Machine

/-! ## Conditions and displacement as numbers -/

/-- The sign bit of an `n`-bit number is set from half its range on. -/
theorem signBit_eq_true {n : Nat} (hn : 0 < n) {v : Quad} (hv : v.toNat < 2 ^ n) :
    signBit n v = true ↔ 2 ^ (n - 1) ≤ v.toNat := by
  obtain ⟨k, rfl⟩ : ∃ k, n = k + 1 := ⟨n - 1, by omega⟩
  rw [Nat.add_sub_cancel]
  have hquot : v.toNat / 2 ^ k < 2 := Nat.div_lt_of_lt_mul (by rwa [← Nat.pow_succ])
  calc signBit (k + 1) v = true ↔ v.toNat / 2 ^ k = 1 := by
        rw [signBit, Nat.add_sub_cancel, BitVec.getLsbD, Nat.testBit_eq_decide_div_mod_eq, decide_eq_true_iff,
          Nat.mod_eq_of_lt hquot]
    _ ↔ 1 ≤ v.toNat / 2 ^ k := by omega
    _ ↔ 2 ^ k ≤ v.toNat := by rw [Nat.one_le_div_iff (Nat.two_pow_pos k)]

theorem condMinus_eq_true {n : Nat} (hn : 0 < n) {v : Quad} (hv : v.toNat < 2 ^ n) :
    condMinus n v = true ↔ 2 ^ (n - 1) ≤ v.toNat :=
  signBit_eq_true hn hv

theorem condPlus_eq_true {n : Nat} (hn : 0 < n) {v : Quad} (hv : v.toNat < 2 ^ n) :
    condPlus n v = true ↔ v.toNat < 2 ^ (n - 1) := by
  rw [condPlus, Bool.not_eq_true', ← Bool.not_eq_true, signBit_eq_true hn hv, not_le]

theorem condZero_eq_true {n : Nat} {v : Quad} (hv : v.toNat < 2 ^ n) : condZero n v = true ↔ v.toNat = 0 := by
  rw [condZero, low_eq_self hv, beq_iff_eq, ← BitVec.toNat_inj]
  rfl

theorem condNotZero_eq_true {n : Nat} {v : Quad} (hv : v.toNat < 2 ^ n) :
    condNotZero n v = true ↔ v.toNat ≠ 0 := by
  rw [condNotZero, bne, Bool.not_eq_true', ← Bool.not_eq_true]
  exact not_congr (condZero_eq_true hv)

/-- The displacement of R151 is its number of words modulo 2^64: d16 after quick 0, d16 - 65536 after quick -1, else the
signed quick. -/
theorem displacementValue_eq_ofInt (s : State) (q : Quick) :
    displacementValue s q = BitVec.ofInt 64 (displacementNumber s q) := by
  have hword : ((s.wordOrZero s.pc).setWidth 64 : Quad) = BitVec.ofInt 64 (s.wordOrZero s.pc).toNat := by
    rw [BitVec.ofInt_natCast, BitVec.ofNat_toNat]
  by_cases hzero : q = 0#5
  · subst hzero
    calc displacementValue s 0#5 = (s.wordOrZero s.pc).setWidth 64 := (zero_displacement _).symm
      _ = BitVec.ofInt 64 (displacementNumber s 0#5) := hword
  by_cases hminus : q = 31#5
  · subst hminus
    calc displacementValue s 31#5 = (s.wordOrZero s.pc).setWidth 64 - BitVec.ofInt 64 65536 :=
          (minus_displacement _).symm
      _ = BitVec.ofInt 64 (displacementNumber s 31#5) := by
        rw [sub_ofInt, BitVec.toNat_setWidth_of_le (by decide)]
        rfl
  · have hshort : longMarker q = false := by simp [longMarker, hzero, hminus]
    have hne0 : q.toNat ≠ 0 := fun h => hzero (BitVec.eq_of_toNat_eq h)
    have hne31 : q.toNat ≠ 31 := fun h => hminus (BitVec.eq_of_toNat_eq h)
    have hsigned : displacementNumber s q = q.toInt := by
      rw [displacementNumber, if_neg hne0, if_neg hne31, BitVec.toInt_eq_toNat_cond]
      split <;> split <;> omega
    rw [displacementValue, hshort, hsigned]
    rfl

/-! ## Completion -/

theorem branchOp_of_ready (cond : Quad → Bool) {n : Nat} (hn : 0 < stepOf n) (opw : Nat) {dst : Operand} {q : Quick}
    {s : State} (h : branchReady s dst n q) : branchOp cond n opw dst q s = .ok (branchState cond s dst n opw q) := by
  obtain ⟨htested, hdst, hdisplacement⟩ := h
  rw [branchOp, (checkTested_eq_ok dst).2 htested, ok_bind, (readDst_eq_ok s _ dst n opw hn _).2 ⟨hdst, rfl, rfl⟩,
    ok_bind]
  dsimp only
  rw [(displacement_eq_ok _ _ q _).2 ⟨hdisplacement, rfl, rfl⟩]
  rfl

/-- A branch with an accessible tested operand completes; on its condition, PC is the address after the instruction word
plus the number of words of the displacement. -/
theorem exec_branch_of_ready {i : Instr} {cond : Quad → Bool} {w : Width} {dst : Operand} {q : Quick}
    (hi : templateOf i = .branch cond w dst q) {s : State} (h : branchReady s dst w.bits q) :
    exec i s = .next
      (if cond (dstValue s dst w.bits (w.opw dst)) = true then
        (displacementState (dstState s dst w.bits) q).setPc
          (s.pc + BitVec.ofInt 64 (displacementNumber (dstState s dst w.bits) q))
      else displacementState (dstState s dst w.bits) q) := by
  rw [exec_eq_next, hi, ← displacementValue_eq_ofInt]
  exact branchOp_of_ready cond w.stepOf_bits_pos _ h

/-- Settles O35: the tested value has opw bits, so each condition on its bits is one on its number. -/
theorem branchResult : Obligations.BranchResult := by
  intro z dst q s h
  have hpos : 0 < opWidth dst (sizeBits z) := lt_of_lt_of_le (by decide) (sixteen_le_opWidth dst z)
  have hv := toNat_dstValue_lt s dst z
  simp only [← condPlus_eq_true hpos hv, ← condMinus_eq_true hpos hv, ← condZero_eq_true hv, ← condNotZero_eq_true hv]
  exact ⟨exec_branch_of_ready (w := .int z) rfl h, exec_branch_of_ready (w := .int z) rfl h,
    exec_branch_of_ready (w := .int z) rfl h, exec_branch_of_ready (w := .int z) rfl h⟩

/-! ## Frame -/

theorem onlyPointers_setPc (s : State) (v : Quad) (moved : Special → Bool) : OnlyPointers s (s.setPc v) moved where
  general := ⟨fun _ _ => rfl, fun _ _ => rfl⟩
  pointers x hx _ := by
    cases x with
    | pc => exact absurd rfl hx
    | ip | sp | rp => rfl
  memory := rfl
  stored := rfl
  control := sameControl_setSpecial s .pc v
  system := (sameSystem_of_systemPart_eq (State.systemPart_setPc s v)).1

theorem onlyPointers_displacementState (s : State) (q : Quick) (moved : Special → Bool) :
    OnlyPointers s (displacementState s q) moved := by
  unfold displacementState
  split
  · exact onlyPointers_setPc s _ moved
  · exact .refl s moved

/-- A branch moves PC and what the read of its tested operand moves. -/
theorem onlyPointers_branchState (cond : Quad → Bool) {s : State} {dst : Operand} {n : Nat} (opw : Nat) (q : Quick)
    {moved : Special → Bool} (h : OnlyPointers s (dstState s dst n) moved) :
    OnlyPointers s (branchState cond s dst n opw q) moved := by
  have hpast := h.trans (onlyPointers_displacementState _ q moved)
  unfold branchState
  split
  · exact hpast.trans (onlyPointers_setPc _ _ moved)
  · exact hpast

/-- The pointer that the tested operand of a branch pops. -/
def poppedBy (dst : Operand) (x : Special) : Bool :=
  dst == .form .ipRp && x == .ip || dst == .form .spSp && x == .sp || dst == .form .rpRp && x == .rp

/-- The read of a tested operand that is no immediate moves the pointer it pops. -/
theorem onlyPointers_dstState_poppedBy (s : State) {dst : Operand} (n : Nat) (hdst : dst ≠ .form .pcSp) :
    OnlyPointers s (dstState s dst n) (poppedBy dst) := by
  cases dst with
  | an | mem | dn | special => exact .refl s _
  | form f =>
    refine onlyPointers_setSpecial s _ ?_
    cases f with
    | pcSp => exact absurd rfl hdst
    | ipRp | spSp | rpRp => rfl

theorem onlyPointers_exec_branch {i : Instr} {cond : Quad → Bool} {w : Width} {dst : Operand} {q : Quick} {s t : State}
    (hi : templateOf i = .branch cond w dst q) (h : exec i s = .next t) : OnlyPointers s t (poppedBy dst) := by
  rw [exec_eq_next, hi] at h
  obtain ⟨⟨htested, _, _⟩, rfl⟩ := branchOp_ok w.stepOf_bits_pos h
  exact onlyPointers_branchState cond _ q (onlyPointers_dstState_poppedBy s _ htested)

/-- Settles O37: the eight branches are of one template. -/
theorem branchFrame : Obligations.BranchFrame := by
  intro z p dst q s t i hi h
  fin_cases hi <;> exact onlyPointers_exec_branch rfl h

/-! ## Refusal -/

/-- The template of the branches looks at the form of the tested operand before it reads anything. -/
theorem exec_branch_immediate {i : Instr} {cond : Quad → Bool} {w : Width} {q : Quick}
    (hi : templateOf i = .branch cond w (.form .pcSp) q) (s : State) : exec i s = .refused .branchOnImmediate := by
  rw [exec_eq_run, hi]
  rfl

/-- Settles O38: the eight branches are of the template that refuses an immediate. -/
theorem branchOnImmediateRefused : Obligations.BranchOnImmediateRefused := by
  intro z p q s i hi
  fin_cases hi <;> exact exec_branch_immediate rfl s

end Sys2Proof.Machine
end

section
/-! SUPPORT. The float operations (O36, O39, O40, O41): the operation width is the operand width for every form of
destination (43_float_ops.md R160), so a source reaches the functions of Config as it was read, with no extension. -/

namespace Sys2Proof.Machine

/-! ## Values of a precision -/

theorem sixteen_mul_stepOf_precisionBits (p : Precision) : 16 * stepOf (precisionBits p) = precisionBits p := by
  cases p <;> rfl

/-- A float source has as many bits as its precision, in a register and in memory (30_encoding.md R90, R91). -/
theorem toNat_srcValue_lt_of_precision (s : State) (src : Operand) (p : Precision) :
    (srcValue s src (precisionBits p)).toNat < 2 ^ precisionBits p := by
  have hwords (x : Quad) : (s.valueAt x (stepOf (precisionBits p))).toNat < 2 ^ precisionBits p := by
    simpa only [sixteen_mul_stepOf_precisionBits] using s.toNat_valueAt_lt x (stepOf (precisionBits p))
  cases src with
  | an r | dn r | special x => exact toNat_low_lt _ _
  | mem r | form f => exact hwords _

/-- The template's sign extension goes no further than the precision, so it leaves a float source as it was read. -/
theorem widen_srcValue_of_precision (s : State) (src : Operand) (p : Precision) :
    widen (precisionBits p) (precisionBits p) (srcValue s src (precisionBits p)) = srcValue s src (precisionBits p) := by
  rw [widen_self, low_eq_self (toNat_srcValue_lt_of_precision s src p)]

/-! ## Results -/

/-- What a float operation writes: its function on destination and source, modulo 2^n. -/
theorem exec_float_of_ready {i : Instr} {f : Quad → Quad → Quad} {p : Precision} {dst src : Operand}
    (hi : templateOf i = .modify f (.float p) dst src) {s : State} (h : modifyReady s dst src (precisionBits p)) :
    exec i s = .next
      (writeState (modifyAt s dst src (precisionBits p)) dst (precisionBits p) (precisionBits p)
        (BitVec.ofNat 64
          ((f (dstValue (srcState s src (precisionBits p)) dst (precisionBits p) (precisionBits p))
            (srcValue s src (precisionBits p))).toNat % 2 ^ precisionBits p))) := by
  rw [exec_modify_of_ready hi h, ← low_eq_ofNat]
  simp only [modifyState, modifyAt, Width.bits, Width.opw, widen_srcValue_of_precision]

/-- Settles O39: the four operations are of the template that reads both operands and writes the destination. -/
theorem floatResult : Obligations.FloatResult := by
  intro p dst src s h
  exact ⟨exec_float_of_ready rfl h, exec_float_of_ready rfl h, exec_float_of_ready rfl h, exec_float_of_ready rfl h⟩

/-- Settles O36: the float branches are of the branch template, at the width of their precision. -/
theorem floatBranchResult : Obligations.FloatBranchResult := by
  intro p dst q s h
  exact ⟨exec_branch_of_ready (w := .float p) rfl h, exec_branch_of_ready (w := .float p) rfl h,
    exec_branch_of_ready (w := .float p) rfl h, exec_branch_of_ready (w := .float p) rfl h⟩

/-! ## Frame -/

/-- Settles O40: the frame of the template that reads both operands and writes the destination. -/
theorem floatFrame : Obligations.FloatFrame := by
  intro p dst src s t i hi h
  fin_cases hi <;> exact frameOf_modify (w := .float p) rfl h

/-- Settles O41: FCN is of the template that only writes its destination. -/
theorem floatConstant : Obligations.FloatConstant := by
  intro op p dst x s
  refine ⟨fun h => ?_, fun t h => ?_⟩
  · rw [← low_eq_ofNat]
    exact exec_set_of_ready (w := .float p) rfl h
  · exact frameOf_set (w := .float p) rfl h

end Sys2Proof.Machine
end

section
/-! SUPPORT. The exchanges (O42 to O47): they complete on every accessible 64-bit destination, swap it with their
register, and refuse the narrow destinations and the pushes that move the register they exchange (44_cfr.md R183). With
the NOP set's `exec_of_refusal`, also the instructions without a meaning (O59). -/

namespace Sys2Proof.Machine

/-! ## Completion -/

theorem exchangeOp_of_ready {x : Special} {n : Nat} (hn : 0 < stepOf n) {dst : Operand} {s : State}
    (hwidth : opWidth dst n = 64) (hpointer : checkExchangePointer x dst = .ok ()) (h : updateReady s dst n) :
    exchangeOp x n dst s =
      .ok ((writeState (dstState s dst n) dst n 64 ((dstState s dst n).getSpecial x)).setSpecial x
        (dstValue s dst n 64)) := by
  obtain ⟨hread, hwrite⟩ := h
  rw [exchangeOp, checkWriteForm_of_writeReady hwrite, ok_bind, (checkExchangeWidth_eq_ok n dst).2 hwidth, ok_bind,
    hpointer, ok_bind, hwidth, (readDst_eq_ok s _ dst n 64 hn _).2 ⟨hread, rfl, rfl⟩, ok_bind]
  dsimp only
  rw [(writeDst_eq_ok _ _ dst n 64 hn _).2 ⟨hwrite, rfl⟩, ok_bind]

/-- An exchange with an accessible 64-bit destination completes with its register and the destination swapped. -/
theorem exec_exchange_of_ready {i : Instr} {x : Special} {z : Size} {dst : Operand}
    (hi : templateOf i = .exchange x z dst) {s : State} (hwidth : opWidth dst (sizeBits z) = 64)
    (hpointer : checkExchangePointer x dst = .ok ()) (h : updateReady s dst (sizeBits z)) :
    exec i s = .next
      ((writeState (dstState s dst (sizeBits z)) dst (sizeBits z) 64
        ((dstState s dst (sizeBits z)).getSpecial x)).setSpecial x (dstValue s dst (sizeBits z) 64)) := by
  rw [exec_eq_next, hi]
  exact exchangeOp_of_ready (stepOf_sizeBits_pos z) hwidth hpointer h

/-- Settles O42: the pointer check refuses SPX on "(-SP)" and RPX on "(-RP)" only. -/
theorem exchangeResult : Obligations.ExchangeResult := by
  intro z dst s hwidth h
  have hpointer (x : Special) := checkExchangePointer_eq_ok x dst
  exact ⟨exec_exchange_of_ready rfl hwidth ((hpointer .pc).2 ⟨nofun, nofun⟩) h,
    exec_exchange_of_ready rfl hwidth ((hpointer .ip).2 ⟨nofun, nofun⟩) h,
    fun hdst => exec_exchange_of_ready rfl hwidth ((hpointer .sp).2 ⟨fun hc => hdst hc.1, nofun⟩) h,
    fun hdst => exec_exchange_of_ready rfl hwidth ((hpointer .rp).2 ⟨nofun, fun hc => hdst hc.1⟩) h⟩

/-! ## Frame -/

/-- Moving pointers of the frame afterwards keeps to the frame. -/
theorem FrameOf.trans_onlyPointers {s w u t : State} {dst : Operand} {n : Nat} {moved : Special → Bool}
    (h : FrameOf s w u dst n moved) (h' : OnlyPointers u t moved) : FrameOf s w t dst n moved where
  general := ⟨fun r hr => (h'.general.1 r nofun).trans (h.general.1 r hr),
    fun r hr => (h'.general.2 r nofun).trans (h.general.2 r hr)⟩
  pointers x hpc hdst hx := (h'.pointers x hpc hx).trans (h.pointers x hpc hdst hx)
  memory b hb := (congrArg (Memory.byteAt · b) h'.memory).trans (h.memory b hb)
  stored y hy := by rw [← h.stored y hy, State.isStored, h'.stored, State.isStored]
  control := h.control.trans h'.control
  system := h.system.trans h'.system

/-- The frame of an exchange: its destination is read and written, then its register. -/
theorem frameOf_exchange {i : Instr} {x : Special} {z : Size} {dst : Operand} {s t : State}
    (hi : templateOf i = .exchange x z dst) (h : exec i s = .next t) :
    FrameOf s (dstState s dst (sizeBits z)) t dst (sizeBits z) (fun y => y == x || dstUpdates .modify dst y) := by
  obtain ⟨_, rfl⟩ := exec_next h
  rw [hi]
  have hread : OnlyPointers s (dstState s dst (sizeBits z)) (fun y => y == x || dstUpdates .modify dst y) :=
    onlyPointers_dstState s _ fun _ hy => Bool.or_eq_true_iff.2 (.inr hy)
  have hwritten := hread.frameOf_writeState (dst := dst) (sizeBits z) (opWidth dst (sizeBits z))
    ((dstState s dst (sizeBits z)).getSpecial x) fun _ hy =>
      Bool.or_eq_true_iff.2 (.inr (dstUpdates_modify_of_write hy))
  exact hwritten.trans_onlyPointers (onlyPointers_setSpecial _ _ (Bool.or_eq_true_iff.2 (.inl (beq_self_eq_true x))))

/-- Settles O43: the four exchanges are of one template. -/
theorem exchangeFrame : Obligations.ExchangeFrame := by
  intro z dst s t
  exact ⟨frameOf_exchange rfl, frameOf_exchange rfl, frameOf_exchange rfl, frameOf_exchange rfl⟩

/-! ## Call and return through a register -/

@[simp] theorem low_all (v : Quad) : low 64 v = v := low_eq_self v.isLt

/-- PCX An swaps PC and An, at any size (44_cfr.md R184). -/
theorem exec_pcx_an (z : Size) (r : RegNum) (s : State) :
    exec (.pcx z (.an r)) s = .next ((s.setA r s.pc).setPc (s.getA r)) := by
  rw [(exchangeResult z (.an r) s rfl ⟨trivial, rfl⟩).1]
  simp only [writeState, dstState, dstValue, insertLow_all, low_all, State.getSpecial_pc, State.setSpecial]

/-- PCX.Q Dn swaps PC and Dn (44_cfr.md R184). -/
theorem exec_pcx_dn (r : RegNum) (s : State) :
    exec (.pcx .q (.dn r)) s = .next ((s.setD r s.pc).setPc (s.getD r)) := by
  rw [(exchangeResult .q (.dn r) s rfl ⟨trivial, rfl⟩).1]
  simp only [writeState, dstState, dstValue, sizeBits, insertLow_all, low_all, State.getSpecial_pc, State.setSpecial]

/-- Settles O45: the second swap takes back from the register what the first left there. -/
theorem callAndReturnByRegister : Obligations.CallAndReturnByRegister := by
  intro z r s next
  refine ⟨⟨_, exec_pcx_an z r s, rfl, ?_, _, exec_pcx_an z r _, ?_, ?_⟩,
    ⟨_, exec_pcx_dn r s, rfl, ?_, _, exec_pcx_dn r _, ?_, ?_⟩⟩ <;> simp

/-! ## Call and return through memory -/

/-- The state in which a 64-bit exchange of `x` through a form that reads at `x` and pushes on `p` stores: both pointers
have moved. -/
def State.entering (s : State) (x p : Special) : State :=
  (s.setSpecial x (s.getSpecial x + 4)).setSpecial p (s.getSpecial p - 4)

/-- The state after that exchange: the address of the following cell is on the stack, and `x` holds the cell it pointed
at. -/
def State.entered (s : State) (x p : Special) : State :=
  ((s.entering x p).storeWords (s.getSpecial p - 4) 4 (s.getSpecial x + 4)).setSpecial x (s.valueAt (s.getSpecial x) 4)

theorem State.getSpecial_entered (s : State) (x p y : Special) :
    (s.entered x p).getSpecial y =
      if y = x then s.valueAt (s.getSpecial x) 4 else if y = p then s.getSpecial p - 4 else s.getSpecial y := by
  rw [State.entered, State.getSpecial_setSpecial]
  split
  · rfl
  · next hx =>
    rw [State.getSpecial_storeWords, State.entering, State.getSpecial_setSpecial, State.getSpecial_setSpecial, if_neg hx]

/-- The exchange of `x` completes on a form that reads at `x` and pushes on `p`, in `State.entered`. -/
theorem exec_enter {i : Instr} {f : Form} (hi : templateOf i = .exchange (readPointer f) .q (.form f)) {p : Special}
    (hp : writePointer f = some p) {s : State} (hread : formReady s f 64)
    (hwrite : s.writable (s.getSpecial p - 4) 4) : exec i s = .next (s.entered (readPointer f) p) := by
  cases f with
  | pcSp | ipRp =>
    obtain rfl := Option.some.inj hp
    rw [exec_exchange_of_ready hi rfl rfl ⟨hread, hwrite⟩]
    rfl
  | spSp | rpRp => cases hp

/-- Whether words can be read is a matter of translation, platform and memory. -/
theorem State.readable_congr {s u : State} {x : Quad} {k : Nat} (hvm : u.vmEnable = s.vmEnable)
    (hplatform : u.platform = s.platform) (hmemory : u.memory = s.memory) (h : s.readable x k) : u.readable x k := by
  simpa only [State.readable, State.mapped, hvm, hplatform, hmemory] using h

/-- The pushed address can be read from the stack, wherever PC stands by then. -/
theorem State.entered_stack {s : State} {x p : Special} (hwrite : s.writable (s.getSpecial p - 4) 4) (next : Quad) :
    ((s.entered x p).setPc next).readable (s.getSpecial p - 4) 4 ∧
      ((s.entered x p).setPc next).valueAt (s.getSpecial p - 4) 4 = s.getSpecial x + 4 := by
  have hentering : (s.entering x p).writable (s.getSpecial p - 4) 4 := by
    simpa only [State.entering, State.writable, State.setSpecial_vmEnable, State.mapped_setSpecial] using hwrite
  have hmemory : ((s.entered x p).setPc next).memory =
      ((s.entering x p).storeWords (s.getSpecial p - 4) 4 (s.getSpecial x + 4)).memory := State.setSpecial_memory _ _ _
  constructor
  · exact State.readable_congr (State.setSpecial_vmEnable _ _ _) (State.setSpecial_platform _ _ _) hmemory
      (State.readable_storeWords hentering _)
  · rw [State.valueAt_of_memory_eq hmemory, State.valueAt_storeWords _ _ _ (by decide)]
    exact low_all _

/-- MOV.Q from a stack to a special register pops the register's new value. -/
theorem exec_leave (x : Special) {f : Form} (hf : f = .spSp ∨ f = .rpRp) {s : State}
    (hread : s.readable (s.getSpecial (readPointer f)) 4) :
    exec (.mov .q (.special x) (.form f)) s = .next
      ((s.setSpecial (readPointer f) (s.getSpecial (readPointer f) + 4)).setSpecial x
        (s.valueAt (s.getSpecial (readPointer f)) 4)) := by
  have hready : moveReady s (.special x) (.form f) 64 := by
    refine ⟨rfl, ?_, rfl⟩
    rcases hf with rfl | rfl <;> exact hread
  rw [exec_eq_next]
  refine (moveOp_of_ready (by decide) 64 hready).trans ?_
  rw [widen_self, low_all, writeState, insertLow_all]
  rfl

/-- The MOV that pops what an exchange of `x` pushed returns after the cell that the exchange read, with the stack pointer
as it was before the exchange, also where the stack wraps. -/
theorem exec_leave_entered {x : Special} {f : Form} (hf : f = .spSp ∨ f = .rpRp) (hx : readPointer f ≠ x) {s : State}
    (hwrite : s.writable (s.getSpecial (readPointer f) - 4) 4) (next : Quad) :
    ∃ u, exec (.mov .q (.special x) (.form f)) ((s.entered x (readPointer f)).setPc next) = .next u ∧
      u.getSpecial x = s.getSpecial x + 4 ∧ u.getSpecial (readPointer f) = s.getSpecial (readPointer f) ∧
      (x ≠ .pc → u.pc = next) := by
  have hpc : readPointer f ≠ .pc := by rcases hf with rfl | rfl <;> nofun
  have hstack : ((s.entered x (readPointer f)).setPc next).getSpecial (readPointer f) =
      s.getSpecial (readPointer f) - 4 := by
    rw [← State.setSpecial, State.getSpecial_setSpecial, if_neg hpc, State.getSpecial_entered, if_neg hx, if_pos rfl]
  obtain ⟨hread, hvalue⟩ := State.entered_stack (x := x) hwrite next
  refine ⟨_, exec_leave x hf (by rwa [hstack]), ?_, ?_, fun hxpc => ?_⟩
  · rw [State.getSpecial_setSpecial, if_pos rfl, hstack, hvalue]
  · rw [State.getSpecial_setSpecial, if_neg hx, State.getSpecial_setSpecial, if_pos rfl, hstack]
    exact BitVec.sub_add_cancel _ _
  · rw [State.setSpecial_pc_of_ne _ _ hxpc, State.setSpecial_pc_of_ne _ _ hpc, State.setPc_pc]

/-- Settles O46: the call pushes on SP the address after its target, and MOV.Q PC,(SP+) pops it. -/
theorem subroutineCallAndReturn : Obligations.SubroutineCallAndReturn := by
  intro s next hstream hwrite
  obtain ⟨u, hleave, hpc, hsp, _⟩ := exec_leave_entered (x := .pc) (f := .spSp) (.inl rfl) nofun hwrite next
  exact ⟨_, exec_enter (f := .pcSp) rfl rfl hstream hwrite, rfl, s.getSpecial_entered .pc .sp .sp, u, hleave, hpc, hsp⟩

/-- Settles O47: the exchange pushes on RP the address of the following cell, and MOV.Q IP,(RP+) pops it; neither moves
PC. -/
theorem threadedEnterAndExit : Obligations.ThreadedEnterAndExit := by
  intro s next hread hwrite
  obtain ⟨u, hleave, hip, hrp, hpc⟩ := exec_leave_entered (x := .ip) (f := .rpRp) (.inr rfl) nofun hwrite next
  exact ⟨_, exec_enter (f := .ipRp) rfl rfl hread hwrite, rfl, s.getSpecial_entered .ip .rp .rp,
    s.getSpecial_entered .ip .rp .pc, u, hleave, hip, hrp, hpc nofun⟩

/-! ## Refusals -/

/-- A narrow exchange on a destination that has a write form is refused before its destination is read. -/
theorem exec_exchange_narrow {i : Instr} {x : Special} {z : Size} {dst : Operand}
    (hi : templateOf i = .exchange x z dst) (hwrites : dst ≠ .form .spSp ∧ dst ≠ .form .rpRp)
    (hwidth : opWidth dst (sizeBits z) ≠ 64) (s : State) : exec i s = .refused .narrowExchange := by
  have hrefused : checkExchangeWidth (sizeBits z) dst = refuse .narrowExchange := if_neg hwidth
  rw [exec_eq_run, hi, Template.run, exchangeOp, (checkWriteForm_eq_ok dst).2 hwrites, ok_bind, hrefused]
  rfl

/-- Only the 64-bit size is the width of a destination other than An and special direct. -/
theorem opWidth_ne_of_narrow {z : Size} (hz : z ≠ .q) {dst : Operand} (han : ∀ r, dst ≠ .an r)
    (hspecial : dst.isSpecial = false) : opWidth dst (sizeBits z) ≠ 64 := by
  have hsize : sizeBits z ≠ 64 := by
    cases z with
    | w | l => decide
    | q => exact absurd rfl hz
  cases dst with
  | an r => exact absurd rfl (han r)
  | special x => cases hspecial
  | mem | dn | form => exact hsize

/-- A unary function is refused on a 64-bit register at a narrow size, before the register is read or written. -/
theorem checkUnaryWidth_of_narrow {z : Size} (hz : z ≠ .q) {dst : Operand} (h : opWidth dst (sizeBits z) = 64) :
    checkUnaryWidth (sizeBits z) dst = refuse .narrowUnaryOnAddressRegister := by
  refine if_neg fun hwidth => ?_
  cases z with
  | w | l => exact absurd (hwidth.symm.trans h) (by decide)
  | q => exact hz rfl

/-- A unary function whose width check refuses its operand is refused, CLR before it looks at the form. -/
theorem exec_unary_narrow {i : Instr} {z : Size} {dst : Operand}
    (hi : templateOf i = .clear z dst ∨ ∃ f, templateOf i = .unary f z dst)
    (hwrites : dst ≠ .form .spSp ∧ dst ≠ .form .rpRp)
    (hrefused : checkUnaryWidth (sizeBits z) dst = refuse .narrowUnaryOnAddressRegister) (s : State) :
    exec i s = .refused .narrowUnaryOnAddressRegister := by
  rw [exec_eq_run]
  rcases hi with hi | ⟨f, hi⟩
  · rw [hi, Template.run, hrefused]
    rfl
  · rw [hi, Template.run, unaryOp, (checkWriteForm_eq_ok dst).2 hwrites, ok_bind, hrefused]
    rfl

/-- Settles O44: the width checks go before every operand access, the pointer check of SPX and RPX too. -/
theorem narrowRefused : Obligations.NarrowRefused := by
  intro z dst r x s
  refine ⟨fun hz han hspecial hsp hrp i hi => ?_, by rw [exec_eq_run]; rfl, by rw [exec_eq_run]; rfl,
    fun hz o ho i hi => ?_⟩
  · have hwidth := opWidth_ne_of_narrow hz han hspecial
    fin_cases hi <;> exact exec_exchange_narrow rfl ⟨hsp, hrp⟩ hwidth s
  · have hregister : opWidth o (sizeBits z) = 64 ∧ o ≠ .form .spSp ∧ o ≠ .form .rpRp := by
      fin_cases ho <;> exact ⟨rfl, nofun, nofun⟩
    obtain ⟨hwidth, hwrites⟩ := hregister
    have htemplate : templateOf i = .clear z o ∨ ∃ f, templateOf i = .unary f z o := by
      fin_cases hi <;> simp [templateOf]
    exact exec_unary_narrow htemplate hwrites (checkUnaryWidth_of_narrow hz hwidth) s

/-- Settles O59: each of the instructions has the template of its refusal. -/
theorem unspecifiedRefused : Obligations.UnspecifiedRefused := by
  intro z dst src n m x y s
  refine ⟨?_, ?_, ?_, ?_, ?_, ?_, ?_, ?_, ?_, ?_, ?_, ?_, ?_, ?_, ?_, ?_, ?_⟩ <;> exact exec_of_refusal rfl s

end Sys2Proof.Machine
end

section
/-! SUPPORT. The halves and fulls functions (O48, O49, O50): they complete on every accessible operand of their width, with
results stated on numbers (44_cfr.md R190 to R208), and change what a write of their operand changes. -/

namespace Sys2Proof.Machine

/-! ## Completion -/

theorem unaryOp_of_ready (f : Nat → Quad → Quad) {n : Nat} (hn : 0 < stepOf n) {dst : Operand} {s : State}
    (hwidth : opWidth dst n = n) (h : updateReady s dst n) :
    unaryOp f n dst s = .ok (writeState (dstState s dst n) dst n n (low n (f n (dstValue s dst n n)))) := by
  obtain ⟨hread, hwrite⟩ := h
  rw [unaryOp, checkWriteForm_of_writeReady hwrite, ok_bind, (checkUnaryWidth_eq_ok n dst).2 hwidth, ok_bind,
    (readDst_eq_ok s _ dst n n hn _).2 ⟨hread, rfl, rfl⟩, ok_bind]
  exact (writeDst_eq_ok _ _ _ _ _ hn _).2 ⟨hwrite, rfl⟩

/-- A unary function whose value on the operand is the number `r` of `n` bits completes with `r` in its operand. -/
theorem exec_unary_of_ready {i : Instr} {f : Nat → Quad → Quad} {z : Size} {dst : Operand}
    (hi : templateOf i = .unary f z dst) {s : State} (hwidth : opWidth dst (sizeBits z) = sizeBits z)
    (h : updateReady s dst (sizeBits z)) {r : Nat}
    (hr : low (sizeBits z) (f (sizeBits z) (dstValue s dst (sizeBits z) (sizeBits z))) = BitVec.ofNat 64 r) :
    exec i s = .next
      (writeState (dstState s dst (sizeBits z)) dst (sizeBits z) (sizeBits z) (BitVec.ofNat 64 r)) := by
  rw [exec_eq_next, hi, ← hr]
  exact unaryOp_of_ready f (stepOf_sizeBits_pos z) hwidth h

/-- CLR completes where its operand can be written. -/
theorem exec_clr_of_ready {z : Size} {dst : Operand} {s : State} (hwidth : opWidth dst (sizeBits z) = sizeBits z)
    (h : writeReady s dst (sizeBits z)) :
    exec (.clr z dst) s = .next (writeState s dst (sizeBits z) (sizeBits z) 0) := by
  rw [exec_eq_next]
  show (checkUnaryWidth (sizeBits z) dst >>= fun _ => setOp 0 (sizeBits z) (sizeBits z) dst s) = _
  rw [(checkUnaryWidth_eq_ok _ dst).2 hwidth, ok_bind, setOp_of_ready 0 (stepOf_sizeBits_pos z) _ h,
    low_eq_self (Nat.two_pow_pos _)]

/-- The operand of a unary function has `n` bits. -/
theorem toNat_dstValue_lt_of_width (s : State) {dst : Operand} {z : Size}
    (hwidth : opWidth dst (sizeBits z) = sizeBits z) :
    (dstValue s dst (sizeBits z) (sizeBits z)).toNat < 2 ^ sizeBits z := by
  simpa only [hwidth] using toNat_dstValue_lt s dst z

/-! ## Halves as numbers -/

theorem sizeBits_le (z : Size) : sizeBits z ≤ 64 := by cases z <;> decide

theorem two_pow_half_mul_self (z : Size) : 2 ^ (sizeBits z / 2) * 2 ^ (sizeBits z / 2) = 2 ^ sizeBits z := by
  cases z <;> rfl

section Halves

variable {z : Size} {v : Quad}

theorem div_two_pow_half_lt (hv : v.toNat < 2 ^ sizeBits z) :
    v.toNat / 2 ^ (sizeBits z / 2) < 2 ^ (sizeBits z / 2) :=
  Nat.div_lt_of_lt_mul (by rwa [two_pow_half_mul_self])

theorem toNat_upperHalf (hv : v.toNat < 2 ^ sizeBits z) :
    (upperHalf (sizeBits z) v).toNat = v.toNat / 2 ^ (sizeBits z / 2) := by
  rw [upperHalf, toNat_low, BitVec.toNat_ushiftRight, Nat.shiftRight_eq_div_pow, Nat.mod_eq_of_lt (div_two_pow_half_lt hv)]

theorem toNat_lowerHalf (n : Nat) (v : Quad) : (lowerHalf n v).toNat = v.toNat % 2 ^ (n / 2) := toNat_low _ _

/-- Two numbers of half the bits make a number of all bits. -/
theorem mul_two_pow_half_add_lt {a b : Nat} (ha : a < 2 ^ (sizeBits z / 2)) (hb : b < 2 ^ (sizeBits z / 2)) :
    a * 2 ^ (sizeBits z / 2) + b < 2 ^ sizeBits z := by
  rw [← two_pow_half_mul_self]
  calc a * 2 ^ (sizeBits z / 2) + b < (a + 1) * 2 ^ (sizeBits z / 2) := by rw [Nat.succ_mul]; omega
    _ ≤ 2 ^ (sizeBits z / 2) * 2 ^ (sizeBits z / 2) := Nat.mul_le_mul_right _ ha

/-- The value of two halves, each taken modulo 2^h (44_cfr.md R190). -/
theorem low_joinHalves {hi lo : Quad} {a b : Nat} (ha : hi.toNat % 2 ^ (sizeBits z / 2) = a)
    (hb : lo.toNat % 2 ^ (sizeBits z / 2) = b) :
    low (sizeBits z) (joinHalves (sizeBits z) hi lo) = BitVec.ofNat 64 (a * 2 ^ (sizeBits z / 2) + b) := by
  have halt : a < 2 ^ (sizeBits z / 2) := ha ▸ Nat.mod_lt _ (Nat.two_pow_pos _)
  have hblt : b < 2 ^ (sizeBits z / 2) := hb ▸ Nat.mod_lt _ (Nat.two_pow_pos _)
  have hjoin := mul_two_pow_half_add_lt halt hblt
  have hshift : a * 2 ^ (sizeBits z / 2) < 2 ^ 64 :=
    (Nat.le_add_right _ b).trans_lt (hjoin.trans_le (Nat.pow_le_pow_right (by decide) (sizeBits_le z)))
  refine low_of_bitwise ?_ hjoin
  rw [joinHalves, BitVec.toNat_or, BitVec.toNat_shiftLeft, toNat_low, toNat_low, ha, hb, Nat.shiftLeft_eq,
    Nat.mod_eq_of_lt hshift, mul_comm, Nat.two_pow_add_eq_or_of_lt hblt]

/-! ## The halves functions on numbers -/

/-- EXH (44_cfr.md R191). -/
theorem low_exchangeHalves (hv : v.toNat < 2 ^ sizeBits z) :
    low (sizeBits z) (exchangeHalves (sizeBits z) v) =
      BitVec.ofNat 64 (v.toNat % 2 ^ (sizeBits z / 2) * 2 ^ (sizeBits z / 2) + v.toNat / 2 ^ (sizeBits z / 2)) :=
  low_joinHalves (by rw [toNat_lowerHalf, Nat.mod_mod])
    (by rw [toNat_upperHalf hv, Nat.mod_eq_of_lt (div_two_pow_half_lt hv)])

/-- INU (44_cfr.md R193). -/
theorem low_increaseUpper (hv : v.toNat < 2 ^ sizeBits z) :
    low (sizeBits z) (increaseUpper (sizeBits z) v) =
      BitVec.ofNat 64 ((v.toNat / 2 ^ (sizeBits z / 2) + 1) % 2 ^ (sizeBits z / 2) * 2 ^ (sizeBits z / 2) +
        v.toNat % 2 ^ (sizeBits z / 2)) := by
  refine low_joinHalves ?_ (by rw [toNat_lowerHalf, Nat.mod_mod])
  rw [← toNat_upperHalf hv, BitVec.toNat_add]
  cases z <;> exact Nat.mod_mod_of_dvd _ (by decide)

/-- DCU (44_cfr.md R194). -/
theorem low_decreaseUpper (hv : v.toNat < 2 ^ sizeBits z) :
    low (sizeBits z) (decreaseUpper (sizeBits z) v) =
      BitVec.ofNat 64 ((v.toNat / 2 ^ (sizeBits z / 2) + 2 ^ (sizeBits z / 2) - 1) % 2 ^ (sizeBits z / 2) *
        2 ^ (sizeBits z / 2) + v.toNat % 2 ^ (sizeBits z / 2)) := by
  refine low_joinHalves ?_ (by rw [toNat_lowerHalf, Nat.mod_mod])
  have hone : (1 : Quad).toNat = 1 := rfl
  rw [← toNat_upperHalf hv, BitVec.toNat_sub, hone]
  cases z <;> simp only [sizeBits] <;> omega

/-- A value is the exchange of its exchanged halves (44_cfr.md R191). -/
theorem low_exchangeHalves_twice (hv : v.toNat < 2 ^ sizeBits z) :
    low (sizeBits z) (exchangeHalves (sizeBits z) (low (sizeBits z) (exchangeHalves (sizeBits z) v))) = v := by
  have hlower : v.toNat % 2 ^ (sizeBits z / 2) < 2 ^ (sizeBits z / 2) := Nat.mod_lt _ (Nat.two_pow_pos _)
  have hupper := div_two_pow_half_lt hv
  have hswapped := mul_two_pow_half_add_lt hlower hupper
  have hnumber : (low (sizeBits z) (exchangeHalves (sizeBits z) v)).toNat =
      v.toNat % 2 ^ (sizeBits z / 2) * 2 ^ (sizeBits z / 2) + v.toNat / 2 ^ (sizeBits z / 2) := by
    rw [low_exchangeHalves hv, BitVec.toNat_ofNat,
      Nat.mod_eq_of_lt (hswapped.trans_le (Nat.pow_le_pow_right (by decide) (sizeBits_le z)))]
  have hpos := Nat.two_pow_pos (sizeBits z / 2)
  rw [low_exchangeHalves (hnumber ▸ hswapped), hnumber, Nat.mul_add_mod_self_right, Nat.mod_eq_of_lt hupper,
    Nat.add_div_of_dvd_right (Nat.dvd_mul_left _ _), Nat.mul_div_cancel _ hpos, Nat.div_eq_of_lt hupper, Nat.add_zero,
    Nat.div_add_mod', BitVec.ofNat_toNat, BitVec.setWidth_eq]

/-! ## Results modulo 2^n -/

/-- The low bits of a number are the `r` below 2^n that it differs from by a multiple of 2^n. -/
theorem low_ofInt_eq_ofNat {x : Int} {r : Nat} (hr : r < 2 ^ sizeBits z) (k : Int) (hx : x = r + 2 ^ sizeBits z * k) :
    low (sizeBits z) (BitVec.ofInt 64 x) = BitVec.ofNat 64 r := by
  have hlt : (r : Int) < 2 ^ sizeBits z := by exact_mod_cast hr
  rw [low_ofInt (sizeBits_le z), wrapTo, hx, Int.add_mul_emod_self_left, Int.emod_eq_of_lt (Int.natCast_nonneg r) hlt,
    BitVec.ofInt_natCast]

theorem signExtendFrom_eq_ofInt (n : Nat) (v : Quad) : signExtendFrom n v = BitVec.ofInt 64 (signedOf n v) := by
  rw [signedOf_eq_toInt]
  rfl

theorem toInt_signExtendFrom {n : Nat} (hn : n ≤ 64) (v : Quad) : (signExtendFrom n v).toInt = signedOf n v := by
  rw [signExtendFrom, BitVec.toInt_signExtend_of_le hn, signedOf_eq_toInt]

/-- SXL (44_cfr.md R192). -/
theorem low_signExtendLow (z : Size) (v : Quad) :
    low (sizeBits z) (signExtendLow (sizeBits z) v) =
      BitVec.ofNat 64
        (if v.toNat % 2 ^ (sizeBits z / 2) < 2 ^ (sizeBits z / 2) / 2 then v.toNat % 2 ^ (sizeBits z / 2)
        else (2 ^ (sizeBits z / 2) - 1) * 2 ^ (sizeBits z / 2) + v.toNat % 2 ^ (sizeBits z / 2)) := by
  have hpos := Nat.two_pow_pos (sizeBits z / 2)
  have hlower : v.toNat % 2 ^ (sizeBits z / 2) < 2 ^ (sizeBits z / 2) := Nat.mod_lt _ hpos
  have htop : 2 ^ (sizeBits z / 2) / 2 = 2 ^ (sizeBits z / 2 - 1) := by cases z <;> rfl
  rw [signExtendLow, low_low, signExtendFrom_eq_ofInt, signedOf, htop]
  split
  · refine low_ofInt_eq_ofNat (hlower.trans_le ?_) 0 (by omega)
    exact Nat.pow_le_pow_right (by decide) (Nat.div_le_self _ _)
  · refine low_ofInt_eq_ofNat (mul_two_pow_half_add_lt (by omega) hlower) (-1) ?_
    have hsquare : (2 : Int) ^ sizeBits z = 2 ^ (sizeBits z / 2) * 2 ^ (sizeBits z / 2) := by
      exact_mod_cast (two_pow_half_mul_self z).symm
    rw [hsquare]
    push_cast [Nat.cast_sub Nat.one_le_two_pow]
    ring

end Halves

/-! ## The fulls functions on numbers -/

section Fulls

variable {z : Size} {v : Quad} (hv : v.toNat < 2 ^ sizeBits z)
include hv

theorem signBit_eq_decide : signBit (sizeBits z) v = decide (2 ^ (sizeBits z - 1) ≤ v.toNat) := by
  have hpos : 0 < sizeBits z := by cases z <;> decide
  rw [Bool.eq_iff_iff, decide_eq_true_iff, signBit_eq_true hpos hv]

theorem low_eq_ofNat_of_lt : low (sizeBits z) v = BitVec.ofNat 64 v.toNat := by
  rw [low_eq_self hv, BitVec.ofNat_toNat, BitVec.setWidth_eq]

/-- ABS; the most negative value is its own (44_cfr.md R201). -/
theorem low_absolute :
    low (sizeBits z) (absolute (sizeBits z) v) =
      BitVec.ofNat 64 (if v.toNat < 2 ^ (sizeBits z - 1) then v.toNat else 2 ^ sizeBits z - v.toNat) := by
  have htop := Nat.two_pow_pos (sizeBits z - 1)
  rw [absolute, signBit_eq_decide hv]
  by_cases hsign : v.toNat < 2 ^ (sizeBits z - 1)
  · rw [decide_eq_false (by omega), if_neg nofun, if_pos hsign]
    exact low_eq_ofNat_of_lt hv
  · have hnegated : 0 - v = BitVec.ofInt 64 (-v.toNat) := by
      rw [BitVec.ofInt_neg, ofInt_toNat, zero_sub]
    rw [decide_eq_true (by omega), if_pos rfl, if_neg hsign, low_low, hnegated]
    refine low_ofInt_eq_ofNat (by omega) (-1) ?_
    rw [Nat.cast_sub hv.le]
    push_cast
    ring

/-- SGN (44_cfr.md R202). -/
theorem low_signOf :
    low (sizeBits z) (signOf (sizeBits z) v) =
      BitVec.ofNat 64 (if v.toNat < 2 ^ (sizeBits z - 1) then 0 else 2 ^ sizeBits z - 1) := by
  have hpos := Nat.two_pow_pos (sizeBits z)
  rw [signOf, signBit_eq_decide hv]
  by_cases hsign : v.toNat < 2 ^ (sizeBits z - 1)
  · rw [decide_eq_false (by omega), if_neg nofun, if_pos hsign]
    exact low_eq_self hpos
  · rw [decide_eq_true (by omega), if_pos rfl, if_neg hsign, low_low]
    refine low_ofInt_eq_ofNat (x := -1) (by omega) (-1) ?_
    rw [Nat.cast_sub hpos]
    push_cast
    ring

/-- ASR by one bit (44_cfr.md R207). -/
theorem low_arithmeticShiftRight :
    low (sizeBits z) (arithmeticShiftRight (sizeBits z) v) =
      BitVec.ofNat 64
        (if v.toNat < 2 ^ (sizeBits z - 1) then v.toNat / 2 else v.toNat / 2 + 2 ^ (sizeBits z - 1)) := by
  have htop : 2 ^ sizeBits z = 2 * 2 ^ (sizeBits z - 1) := by cases z <;> rfl
  have htopInt : (2 : Int) ^ sizeBits z = 2 * 2 ^ (sizeBits z - 1) := by exact_mod_cast htop
  rw [arithmeticShiftRight, low_low, BitVec.sshiftRight, toInt_signExtendFrom (sizeBits_le z), signedOf,
    Nat.mod_eq_of_lt hv, Int.shiftRight_eq_div_pow]
  split
  · exact low_ofInt_eq_ofNat (by omega) 0 (by simp [Config.shiftAmt])
  · refine low_ofInt_eq_ofNat (by omega) (-1) ?_
    rw [htopInt]
    simp only [Config.shiftAmt]
    push_cast
    omega

/-- LSR by one bit (44_cfr.md R208). -/
theorem low_logicShiftRight :
    low (sizeBits z) (logicShiftRight (sizeBits z) v) = BitVec.ofNat 64 (v.toNat / 2) := by
  refine low_of_bitwise ?_ ((Nat.div_le_self _ _).trans_lt hv)
  rw [logicShiftRight, low_eq_self hv, BitVec.toNat_ushiftRight, Nat.shiftRight_eq_div_pow]
  rfl

end Fulls

/-! ## The statements -/

/-- A unary function on Dn replaces the low bits by its value on them. -/
theorem exec_unary_dn {i : Instr} {f : Nat → Quad → Quad} {z : Size} {r : RegNum}
    (hi : templateOf i = .unary f z (.dn r)) (s : State) :
    exec i s = .next (s.setD r
      (insertLow (sizeBits z) (s.getD r) (low (sizeBits z) (f (sizeBits z) (low (sizeBits z) (s.getD r)))))) := by
  rw [exec_eq_next, hi]
  exact unaryOp_of_ready f (stepOf_sizeBits_pos z) rfl ⟨trivial, rfl⟩

/-- Only the last replacement of the low bits counts. -/
theorem insertLow_insertLow (n : Nat) (old v w : Quad) : insertLow n (insertLow n old v) w = insertLow n old w :=
  BitVec.eq_of_toNat_eq (by rw [toNat_insertLow, toNat_insertLow_div, ← toNat_insertLow])

theorem low_insertLow (n : Nat) (old v : Quad) : low n (insertLow n old v) = low n v :=
  low_congr (toNat_insertLow_mod n old v)

theorem State.setD_setD (s : State) (r : RegNum) (v w : Quad) : (s.setD r v).setD r w = s.setD r w := by
  have hd : (s.d.set r v).set r w = s.d.set r w := Vector.set_set _ _
  rw [State.setD, State.setD_d, hd]
  rfl

/-- EXH twice on Dn restores the state. -/
theorem exec_exh_twice (z : Size) (r : RegNum) (s : State) :
    ∃ t, exec (.exh z (.dn r)) s = .next t ∧ exec (.exh z (.dn r)) t = .next s := by
  refine ⟨_, exec_unary_dn rfl s, (exec_unary_dn rfl _).trans ?_⟩
  rw [State.getD_setD, if_pos rfl, low_insertLow, low_low, low_exchangeHalves_twice (toNat_low_lt _ _),
    insertLow_insertLow, insertLow_low_self, State.setD_setD, State.setD_getD]

/-- Settles O48: the operand has `n` bits, and each function is one of its two halves as numbers. -/
theorem halvesResult : Obligations.HalvesResult := by
  refine ⟨⟨?_, ?_, ?_, ?_⟩, fun z dst s hwidth h => ?_, exec_exh_twice⟩
  iterate 4 exact decodeWord_of_encode_eq rfl rfl
  have hv := toNat_dstValue_lt_of_width s hwidth
  exact ⟨exec_unary_of_ready rfl hwidth h (low_exchangeHalves hv),
    exec_unary_of_ready rfl hwidth h (low_signExtendLow z _),
    exec_unary_of_ready rfl hwidth h (low_increaseUpper hv),
    exec_unary_of_ready rfl hwidth h (low_decreaseUpper hv)⟩

/-- Settles O49: the operand has `n` bits, and each function but CLR is one of its number; CLR writes 0. -/
theorem fullsResult : Obligations.FullsResult := by
  refine ⟨⟨?_, ?_, ?_, ?_, ?_⟩, fun z dst s hwidth => ⟨fun h => ?_, exec_clr_of_ready hwidth⟩⟩
  iterate 5 exact decodeWord_of_encode_eq rfl rfl
  have hv := toNat_dstValue_lt_of_width s hwidth
  exact ⟨exec_unary_of_ready rfl hwidth h (low_absolute hv), exec_unary_of_ready rfl hwidth h (low_signOf hv),
    exec_unary_of_ready rfl hwidth h (low_arithmeticShiftRight hv),
    exec_unary_of_ready rfl hwidth h (low_logicShiftRight hv)⟩

/-! ## Frame -/

/-- The frame of a unary function that reads its operand and then writes it. -/
theorem frameOf_unary {i : Instr} {f : Nat → Quad → Quad} {z : Size} {dst : Operand} {s t : State}
    (hi : templateOf i = .unary f z dst) (h : exec i s = .next t) :
    FrameOf s (dstState s dst (sizeBits z)) t dst (sizeBits z) (dstUpdates .modify dst) := by
  obtain ⟨_, rfl⟩ := exec_next h
  rw [hi]
  exact (onlyPointers_dstState s _ fun _ => id).frameOf_writeState _ _ _ fun _ => dstUpdates_modify_of_write

/-- Settles O50: the eight functions are of one template; CLR only writes its operand. -/
theorem unaryFrame : Obligations.UnaryFrame := by
  intro z dst s t
  refine ⟨fun i hi h => ?_, fun h => ?_⟩
  · fin_cases hi <;> exact frameOf_unary rfl h
  · obtain ⟨_, rfl⟩ := exec_next h
    exact (OnlyPointers.refl s _).frameOf_writeState _ _ _ fun _ => id

end Sys2Proof.Machine
end

section
/-! SUPPORT. The supervisor and hypervisor blocks and the traps (O53 to O56, O58, O60): in a mode that may execute it, a
privileged instruction is the body of its template (60_exceptions.md R300). -/

namespace Sys2Proof.Machine

/-! ## Modes -/

theorem Mode.atLeast_supervisor (m : Mode) : m.atLeast .supervisor = true ↔ m ≠ .user := by
  cases m <;> decide

theorem Mode.atLeast_hypervisor (m : Mode) : m.atLeast .hypervisor = true ↔ m = .hypervisor := by
  cases m <;> decide

/-- A privileged template in a mode that may run it is its body. -/
theorem exec_of_privileged {i : Instr} {m : Mode} {body : Template} {s : State}
    {out : Host.Outcome State Fault Refusal} (hi : templateOf i = .privileged m body)
    (hmode : s.mode.atLeast m = true) (hbody : finish (body.run s) = out) : exec i s = out := by
  have hrun : (Template.privileged m body).run s = body.run s := if_pos hmode
  rw [exec_eq_run, hi, hrun, hbody]

theorem exec_of_supervisor {i : Instr} {body : Template} {s : State} {out : Host.Outcome State Fault Refusal}
    (hi : templateOf i = .privileged .supervisor body) (hmode : s.mode ≠ .user)
    (hbody : finish (body.run s) = out) : exec i s = out :=
  exec_of_privileged hi ((Mode.atLeast_supervisor _).2 hmode) hbody

theorem exec_of_hypervisor {i : Instr} {body : Template} {s : State} {out : Host.Outcome State Fault Refusal}
    (hi : templateOf i = .privileged .hypervisor body) (hmode : s.mode = .hypervisor)
    (hbody : finish (body.run s) = out) : exec i s = out :=
  exec_of_privileged hi ((Mode.atLeast_hypervisor _).2 hmode) hbody

/-! ## The bodies that answer -/

/-- The d64 of SUP goes from the stream into the user page-table pointer (45_system_ops.md R266). -/
theorem run_loadUserPt {s : State} (h : s.streamable 4) :
    Template.loadUserPt.run s = .ok ((s.setPc (s.pc + 4)).setUserPt (s.valueAt s.pc 4)) := by
  rw [Template.run, (streamRead_eq_ok _ _ 4 (by decide) _).2 ⟨h, rfl, rfl⟩]
  rfl

/-- The d64 of SSP goes from the stream into the supervisor page-table pointer (45_system_ops.md R274). -/
theorem run_loadSuperPt {s : State} (h : s.streamable 4) :
    Template.loadSuperPt.run s = .ok ((s.setPc (s.pc + 4)).setSuperPt (s.valueAt s.pc 4)) := by
  rw [Template.run, (streamRead_eq_ok _ _ 4 (by decide) _).2 ⟨h, rfl, rfl⟩]
  rfl

theorem State.setVmEnable_of_eq {s : State} {v : Bool} (h : s.vmEnable = v) : s.setVmEnable v = s := by
  rw [← h]
  rfl

/-- Settles O53: each is the write of the interrupt-enable bit behind the supervisor check. -/
theorem interruptEnable : Obligations.InterruptEnable := by
  refine ⟨decodeWord_of_encode_eq rfl rfl, decodeWord_of_encode_eq rfl rfl, fun s hmode => ⟨?_, ?_⟩⟩
  · exact exec_of_supervisor rfl hmode rfl
  · exact exec_of_supervisor rfl hmode rfl

/-- Settles O54: each is the empty body behind its privilege check. -/
theorem privilegedNops : Obligations.PrivilegedNops :=
  ⟨decodeWord_of_encode_eq rfl rfl, decodeWord_of_encode_eq rfl rfl, fun _ =>
    ⟨fun hmode => exec_of_supervisor rfl hmode rfl, fun hmode => exec_of_hypervisor rfl hmode rfl⟩⟩

/-- Settles O55: behind the privilege check, the four words of the stream are there to be loaded. -/
theorem pageTablePointers : Obligations.PageTablePointers := by
  refine ⟨decodeWord_of_encode_eq rfl rfl, decodeWord_of_encode_eq rfl rfl, fun s hstream =>
    ⟨fun hmode => ?_, fun hmode => ?_⟩⟩
  · exact exec_of_supervisor rfl hmode (congrArg finish (run_loadUserPt hstream))
  · exact exec_of_hypervisor rfl hmode (congrArg finish (run_loadSuperPt hstream))

/-- Settles O56: clearing a bit that is clear changes nothing. -/
theorem dvmResult : Obligations.DvmResult := by
  refine ⟨decodeWord_of_encode_eq rfl rfl, fun s hmode => ?_⟩
  have hclear : exec .dvm s = .next (s.setVmEnable false) := exec_of_hypervisor rfl hmode rfl
  exact ⟨hclear, fun hvm => by rw [hclear, State.setVmEnable_of_eq hvm]⟩

/-! ## The bodies that stop -/

theorem exec_of_fault {i : Instr} {f : Fault} (h : templateOf i = .stop (.fault f)) (s : State) :
    exec i s = .fault f := by
  rw [exec_eq_run, h]
  rfl

/-- Settles O58: BRK and TRP have the template of their fault, the others have it behind a privilege check. -/
theorem trapOutcomes : Obligations.TrapOutcomes := by
  intro s m
  refine ⟨exec_of_fault rfl s, exec_of_fault rfl s, fun hmode => ⟨?_, ?_⟩, fun hmode => ?_⟩
  · exact exec_of_supervisor rfl hmode rfl
  · exact exec_of_supervisor rfl hmode rfl
  · exact exec_of_hypervisor rfl hmode rfl

/-- Settles O60: each of the instructions has its refusal behind a privilege check. -/
theorem privilegedUnspecifiedRefused : Obligations.PrivilegedUnspecifiedRefused := by
  intro m src s
  refine ⟨fun hmode => ⟨?_, ?_, ?_, ?_⟩, fun hmode => ⟨?_, ?_, ?_, ?_, ?_, ?_⟩⟩
  iterate 4 exact exec_of_supervisor rfl hmode rfl
  iterate 6 exact exec_of_hypervisor rfl hmode rfl

end Sys2Proof.Machine
end

section
/-! SUPPORT. What the modes confine (O17, O57): each template has a lowest mode that its effect on the control state needs,
an instruction that completes ran in that mode or above, and one below it is refused (60_exceptions.md R300, R301). -/

namespace Sys2Proof.Machine

/-! ## Levels -/

theorem Mode.atLeast_user (m : Mode) : m.atLeast .user = true := by
  cases m <;> decide

theorem Mode.user_atLeast (m : Mode) : Mode.user.atLeast m = true ↔ m = .user := by
  cases m <;> decide

theorem Mode.supervisor_atLeast (m : Mode) : Mode.supervisor.atLeast m = true ↔ m ≠ .hypervisor := by
  cases m <;> decide

/-! ## What the operand operations leave of the control state -/

theorem sameControl_srcState (s : State) (src : Operand) (n : Nat) : SameControl s (srcState s src n) :=
  (onlyPointers_srcState s n (moved := fun _ => true) fun _ _ => rfl).control

theorem sameControl_dstState (s : State) (dst : Operand) (n : Nat) : SameControl s (dstState s dst n) :=
  (onlyPointers_dstState s n (moved := fun _ => true) fun _ _ => rfl).control

theorem sameControl_branchState (cond : Quad → Bool) (s : State) (dst : Operand) (n opw : Nat) (q : Quick) :
    SameControl s (branchState cond s dst n opw q) :=
  (onlyPointers_branchState cond opw q
    (onlyPointers_dstState s n (moved := fun _ => true) fun _ _ => rfl)).control

/-! ## What a template does to the control state -/

/-- The lowest mode that may change the control state as a template does; user mode where it changes none of it. -/
def Template.controlMode (p : Template) : Mode :=
  match p with
  | loadUserPt | setInterrupts _ => .supervisor
  | loadSuperPt | endTranslation => .hypervisor
  | privileged _ body => body.controlMode
  | stop .. | nop | move .. | modify .. | set .. | clear .. | quick .. | unary .. | exchange .. | branch .. => .user

/-- A template of user mode moves pointers and writes its destination, neither of which is control state. -/
theorem Template.sameControl_after {p : Template} (h : p.controlMode = .user) (s : State) : SameControl s (p.after s) := by
  induction p with
  | stop | nop => exact (OnlyPointers.refl s fun _ => true).control
  | move z dst src => exact (sameControl_srcState _ _ _).trans (sameControl_writeState _ _ _ _ _)
  | modify f w dst src =>
    exact ((sameControl_srcState _ _ _).trans (sameControl_dstState _ _ _)).trans (sameControl_writeState _ _ _ _ _)
  | set | clear => exact sameControl_writeState _ _ _ _ _
  | quick | unary => exact (sameControl_dstState _ _ _).trans (sameControl_writeState _ _ _ _ _)
  | exchange x z dst =>
    exact ((sameControl_dstState _ _ _).trans (sameControl_writeState _ _ _ _ _)).trans (sameControl_setSpecial _ _ _)
  | branch => exact sameControl_branchState _ _ _ _ _ _
  | loadUserPt | loadSuperPt | setInterrupts | endTranslation => cases h
  | privileged m body ih => exact ih h

/-- Below hypervisor mode, SUP, EIN and DIN are left, which write the user page-table pointer and the interrupt enable. -/
theorem Template.translation_after {p : Template} (h : p.controlMode ≠ .hypervisor) (s : State) :
    (p.after s).vmEnable = s.vmEnable ∧ (p.after s).superPt = s.superPt := by
  by_cases huser : p.controlMode = .user
  · have hsame := sameControl_after huser s
    exact ⟨hsame.vmEnable, hsame.superPt⟩
  · induction p with
    | loadUserPt | setInterrupts => exact ⟨rfl, rfl⟩
    | loadSuperPt | endTranslation => exact absurd rfl h
    | privileged m body ih => exact ih h huser
    | _ => exact absurd rfl huser

/-! ## The privilege check -/

/-- The instructions that change control state check for the mode that this needs. -/
theorem templateOf_checks_controlMode (i : Instr) :
    (templateOf i).controlMode = .user ∨
    ∃ body, templateOf i = .privileged (templateOf i).controlMode body := by
  cases i with
  | sup | ein | din | ssp | dvm => exact .inr ⟨_, rfl⟩
  | _ => exact .inl rfl

/-- An instruction that completes ran in a mode that may change the control state as it does. -/
theorem atLeast_controlMode_of_exec {i : Instr} {s t : State} (h : exec i s = .next t) :
    s.mode.atLeast (templateOf i).controlMode = true := by
  obtain huser | ⟨body, hprivileged⟩ := templateOf_checks_controlMode i
  · rw [huser]
    exact Mode.atLeast_user _
  · rw [exec_eq_next, hprivileged] at h
    exact ((privileged_eq_ok _ s t _).1 h).1

/-- A privileged template below its mode is refused. -/
theorem exec_of_unprivileged {i : Instr} {m : Mode} {body : Template} {s : State}
    (hi : templateOf i = .privileged m body) (hmode : ¬ s.mode.atLeast m = true) : exec i s = .refused .privilege := by
  have hrun : (Template.privileged m body).run s = refuse .privilege := if_neg hmode
  rw [exec_eq_run, hi, hrun, finish_refuse]

/-! ## The obligations -/

/-- Settles O17: the fetch moves PC, and the template of an instruction that completed is one of the mode of the state. -/
theorem modesConfineSteps : Obligations.ModesConfineSteps := by
  intro s t hstep
  obtain ⟨_, hmode, hpending⟩ := stepKeepsSystem s t hstep
  obtain ⟨_, hexec⟩ := step_next hstep
  have hlevel := atLeast_controlMode_of_exec hexec
  rw [State.setPc_mode] at hlevel
  obtain ⟨_, rfl⟩ := exec_next hexec
  refine ⟨fun huser => ?_, fun hsupervisor => ⟨hmode, hpending, ?_⟩⟩
  · rw [huser, Mode.user_atLeast] at hlevel
    exact (sameControl_setSpecial s .pc _).trans (Template.sameControl_after hlevel _)
  · rw [hsupervisor, Mode.supervisor_atLeast] at hlevel
    exact Template.translation_after hlevel _

/-- Settles O57: each of the instructions has its check for its mode in its template. -/
theorem privilegeRefused : Obligations.PrivilegeRefused := by
  intro s m o
  refine ⟨fun huser i hi => ?_, fun hbelow i hi => ?_⟩
  · have hmode : ¬ s.mode.atLeast .supervisor = true := fun h => (Mode.atLeast_supervisor _).1 h huser
    fin_cases hi <;> exact exec_of_unprivileged rfl hmode
  · have hmode : ¬ s.mode.atLeast .hypervisor = true := fun h => hbelow ((Mode.atLeast_hypervisor _).1 h)
    fin_cases hi <;> exact exec_of_unprivileged rfl hmode

end Sys2Proof.Machine
end
